-- ==== Sys2Proof/Word.lean ====
section
/-! DEFINITION. The 32-bit word every operation of the block takes, and the byte it is assembled from. -/

namespace Sys2Proof

/-- One stored byte of the byte-source collaborator (`20_memory.md` R30: `b0`, `b1`, `b2`, `b3`). -/
abbrev Byte := BitVec 8

/-- `RawWord` of `10_state.md` R13: a 32-bit unsigned value, bit 0 least significant; every one of the
2^32 values is in the domain of every operation. -/
abbrev Word := BitVec 32

end Sys2Proof
end

