-- ==== Sys2Proof/Syntax.lean ====
section
/-! DEFINITION. The closed enumerations of the data model (`10_state.md` section 3) and the instruction
words as syntax: one constructor of `Instr` for each of the 41 rows of `spec/opcode_table.json`.

An `Instr` loses no bit of its word: a bit that the row fixes is in the constructor, every other bit is
in an argument, named after its field where the spec names one and after its bit range where the spec
gives no field (`30_encoding.md` R49). -/

namespace Sys2Proof

/-- `10_state.md` R15: the 16 condition names, in the order of their 4-bit values; `CS` is also written
`HS` and `CC` is also written `LO` (R103, R104). -/
inductive ConditionCode where
  | EQ | NE | CS | CC | MI | PL | VS | VC | HI | LS | GE | LT | GT | LE | AL | NV
  deriving DecidableEq, Repr

/-- `10_state.md` R14: the closed 16-variant enumeration, in the order of the classifier's rows. -/
inductive InstructionFormat where
  | multiply
  | multiplyLong
  | branchAndExchange
  | singleDataSwap
  | halfwordDataTransferReg
  | halfwordDataTransferImm
  | signedDataTransfer
  | dataProcessingPsr
  | loadStore
  /-- Kept in the type, never produced by `classify` (`41_format_classifier.md` R82). -/
  | undefined
  | blockDataTransfer
  | branch
  | coprocDataTransfer
  | coprocDataOp
  | coprocRegTransfer
  | softwareInterrupt
  deriving DecidableEq, Repr

/-- `44_data_processing_decoder.md` R143: the 16 opcode names, in list order. -/
inductive DpOpcode where
  | AND | EOR | SUB | RSB | ADD | ADC | SBC | RSC | TST | TEQ | CMP | CMN | ORR | MOV | BIC | MVN
  deriving DecidableEq, Repr

/-- `45_load_store_decoder.md` R171: the two load/store opcode names. -/
inductive LsOpcode where
  | LDR | STR
  deriving DecidableEq, Repr

/-- `10_state.md` R16: the four shift labels, in list order. They are names only: the block shifts
nothing, and no label carries shift semantics (`93_implementation_defined.md` U3). -/
inductive ShiftType where
  | logicalLeft | logicalRight | arithmeticLeft | arithmeticRight
  deriving DecidableEq, Repr

/-- `10_state.md` R28: the three classes of the facade's coarse view. -/
inductive CoarseClass where
  | dataProcessing | branch | memoryProcessing
  deriving DecidableEq, Repr

/-- The 13 operand bits (bit 25 and bits 11:0) of a `DataProcessingPsr` word, in the three shapes of
`30_encoding.md` R51. `low` is bits 3:0, which the Data-Processing decoder does not read and the facade
exposes (`44_data_processing_decoder.md` R160, `43_instruction_facade.md` R126). -/
inductive Op2Form where
  | imm (rotateCount : BitVec 4) (immValue : BitVec 8)
  | direct (shiftCount : BitVec 5) (shiftType : BitVec 2) (low : BitVec 4)
  | indirect (shiftRegister : BitVec 5) (shiftType : BitVec 2) (low : BitVec 4)
  deriving DecidableEq, Repr

/-- The 13 offset bits (bit 25 and bits 11:0) of a `LoadStore` word, in the two shapes of
`30_encoding.md` R52. `bit4` is the bit the decoder does not read (`45_load_store_decoder.md` R175). -/
inductive OffsetForm where
  | imm (imm : BitVec 12)
  | shift (shiftCount : BitVec 5) (shiftType : BitVec 2) (bit4 : Bool) (register : BitVec 4)
  deriving DecidableEq, Repr

/-- One constructor per row of `spec/opcode_table.json`: the 16 format rows in priority order, the hole,
and the 24 sub-rows (`30_encoding.md` R58). Every constructor carries the condition of bits 31:28 (R41).
Arguments named `bHI_LO` are the raw bits `HI:LO` of a format for which the spec gives no field. -/
inductive Instr where
  /-- Row 1 (R73): fixed 27:22 and 7:4. -/
  | multiply (c : ConditionCode) (b21_8 : BitVec 14) (b3_0 : BitVec 4)
  /-- Row 2 (R74), the parent row of the four `MultiplyLong` sub-rows; `b22` is the inverted `unsigned`
  bit (`47_multiply_long_decoder.md` R192). -/
  | multiplyLong (c : ConditionCode) (b22 accumulate setFlags : Bool)
      (rdHi rdLo multiplier multiplicand : BitVec 4)
  /-- Row 3 (R75): fixed 27:4. -/
  | branchAndExchange (c : ConditionCode) (target : BitVec 4)
  /-- Row 4 (R76): fixed 27:23, 21:20 and 11:4. -/
  | singleDataSwap (c : ConditionCode) (b22 : Bool) (b19_12 : BitVec 8) (b3_0 : BitVec 4)
  /-- Row 5 (R77): fixed 27:25, 22 and 11:4. -/
  | halfwordDataTransferReg (c : ConditionCode) (b24_23 : BitVec 2) (b21_12 : BitVec 10)
      (b3_0 : BitVec 4)
  /-- Row 6 (R78): fixed 27:25, 22 and 7:4. -/
  | halfwordDataTransferImm (c : ConditionCode) (b24_23 : BitVec 2) (b21_8 : BitVec 14)
      (b3_0 : BitVec 4)
  /-- Row 7 (R79): fixed 27:25, 7:6 and 4. -/
  | signedDataTransfer (c : ConditionCode) (b24_8 : BitVec 17) (b5 : Bool) (b3_0 : BitVec 4)
  /-- Row 8 (R80), the parent row of the sixteen data-processing sub-rows. -/
  | dataProcessingPsr (c : ConditionCode) (op : DpOpcode) (setFlags : Bool) (rn rd : BitVec 4)
      (op2 : Op2Form)
  /-- Row 9 (R81), the parent row of `LDR` and `STR`. -/
  | loadStore (c : ConditionCode) (op : LsOpcode) (prePost upDown byteWord writeback : Bool)
      (rn rd : BitVec 4) (offset : OffsetForm)
  /-- Row 10 (R82), the shadowed row: fixed 27:25 and 4. Every word of it is a `LoadStore` word. -/
  | undefined (c : ConditionCode) (b24_5 : BitVec 20) (b3_0 : BitVec 4)
  /-- Row 11 (R83): fixed 27:25 and 22. -/
  | blockDataTransfer (c : ConditionCode) (b24_23 : BitVec 2) (b21_0 : BitVec 22)
  /-- Row 12 (R84), the parent row of the two branch sub-rows. -/
  | branch (c : ConditionCode) (link : Bool) (offset : BitVec 24)
  /-- Row 13 (R85): fixed 27:25. -/
  | coprocDataTransfer (c : ConditionCode) (b24_0 : BitVec 25)
  /-- Row 14 (R86): fixed 27:24 and 4. -/
  | coprocDataOp (c : ConditionCode) (b23_5 : BitVec 19) (b3_0 : BitVec 4)
  /-- Row 15 (R87): fixed 27:24 and 4. -/
  | coprocRegTransfer (c : ConditionCode) (b23_5 : BitVec 19) (b3_0 : BitVec 4)
  /-- Row 16 (R88): fixed 27:24. -/
  | softwareInterrupt (c : ConditionCode) (b23_0 : BitVec 24)
  /-- The hole (R90): fixed 27:25 and 22. -/
  | unclassifiedInstruction (c : ConditionCode) (b24_23 : BitVec 2) (b21_0 : BitVec 22)
  /-- R144. -/
  | and (c : ConditionCode) (setFlags : Bool) (rn rd : BitVec 4) (op2 : Op2Form)
  /-- R145. -/
  | eor (c : ConditionCode) (setFlags : Bool) (rn rd : BitVec 4) (op2 : Op2Form)
  /-- R146. -/
  | sub (c : ConditionCode) (setFlags : Bool) (rn rd : BitVec 4) (op2 : Op2Form)
  /-- R147. -/
  | rsb (c : ConditionCode) (setFlags : Bool) (rn rd : BitVec 4) (op2 : Op2Form)
  /-- R148. -/
  | add (c : ConditionCode) (setFlags : Bool) (rn rd : BitVec 4) (op2 : Op2Form)
  /-- R149. -/
  | adc (c : ConditionCode) (setFlags : Bool) (rn rd : BitVec 4) (op2 : Op2Form)
  /-- R150. -/
  | sbc (c : ConditionCode) (setFlags : Bool) (rn rd : BitVec 4) (op2 : Op2Form)
  /-- R151. -/
  | rsc (c : ConditionCode) (setFlags : Bool) (rn rd : BitVec 4) (op2 : Op2Form)
  /-- R152. -/
  | tst (c : ConditionCode) (setFlags : Bool) (rn rd : BitVec 4) (op2 : Op2Form)
  /-- R153. -/
  | teq (c : ConditionCode) (setFlags : Bool) (rn rd : BitVec 4) (op2 : Op2Form)
  /-- R154. -/
  | cmp (c : ConditionCode) (setFlags : Bool) (rn rd : BitVec 4) (op2 : Op2Form)
  /-- R155. -/
  | cmn (c : ConditionCode) (setFlags : Bool) (rn rd : BitVec 4) (op2 : Op2Form)
  /-- R156. -/
  | orr (c : ConditionCode) (setFlags : Bool) (rn rd : BitVec 4) (op2 : Op2Form)
  /-- R157. -/
  | mov (c : ConditionCode) (setFlags : Bool) (rn rd : BitVec 4) (op2 : Op2Form)
  /-- R158. -/
  | bic (c : ConditionCode) (setFlags : Bool) (rn rd : BitVec 4) (op2 : Op2Form)
  /-- R159. -/
  | mvn (c : ConditionCode) (setFlags : Bool) (rn rd : BitVec 4) (op2 : Op2Form)
  /-- R172: bit 20 set. -/
  | ldr (c : ConditionCode) (prePost upDown byteWord writeback : Bool) (rn rd : BitVec 4)
      (offset : OffsetForm)
  /-- R173: bit 20 clear. -/
  | str (c : ConditionCode) (prePost upDown byteWord writeback : Bool) (rn rd : BitVec 4)
      (offset : OffsetForm)
  /-- R181: bit 24 clear. -/
  | branchLinkFalse (c : ConditionCode) (offset : BitVec 24)
  /-- R182: bit 24 set. -/
  | branchLinkTrue (c : ConditionCode) (offset : BitVec 24)
  /-- R195: bits 22:21 are 00. -/
  | multiplyLongUnsignedTrueAccumulateFalse (c : ConditionCode) (setFlags : Bool)
      (rdHi rdLo multiplier multiplicand : BitVec 4)
  /-- R195: bits 22:21 are 01. -/
  | multiplyLongUnsignedTrueAccumulateTrue (c : ConditionCode) (setFlags : Bool)
      (rdHi rdLo multiplier multiplicand : BitVec 4)
  /-- R195: bits 22:21 are 10. -/
  | multiplyLongUnsignedFalseAccumulateFalse (c : ConditionCode) (setFlags : Bool)
      (rdHi rdLo multiplier multiplicand : BitVec 4)
  /-- R195: bits 22:21 are 11. -/
  | multiplyLongUnsignedFalseAccumulateTrue (c : ConditionCode) (setFlags : Bool)
      (rdHi rdLo multiplier multiplicand : BitVec 4)
  deriving DecidableEq, Repr

/-- The data-processing sub-row of an opcode name (R144 to R159). -/
def Instr.ofDpOpcode (op : DpOpcode) (c : ConditionCode) (setFlags : Bool) (rn rd : BitVec 4)
    (op2 : Op2Form) : Instr :=
  match op with
  | .AND => .and c setFlags rn rd op2
  | .EOR => .eor c setFlags rn rd op2
  | .SUB => .sub c setFlags rn rd op2
  | .RSB => .rsb c setFlags rn rd op2
  | .ADD => .add c setFlags rn rd op2
  | .ADC => .adc c setFlags rn rd op2
  | .SBC => .sbc c setFlags rn rd op2
  | .RSC => .rsc c setFlags rn rd op2
  | .TST => .tst c setFlags rn rd op2
  | .TEQ => .teq c setFlags rn rd op2
  | .CMP => .cmp c setFlags rn rd op2
  | .CMN => .cmn c setFlags rn rd op2
  | .ORR => .orr c setFlags rn rd op2
  | .MOV => .mov c setFlags rn rd op2
  | .BIC => .bic c setFlags rn rd op2
  | .MVN => .mvn c setFlags rn rd op2

/-- The load/store sub-row of an opcode name (R172, R173). -/
def Instr.ofLsOpcode (op : LsOpcode) (c : ConditionCode) (prePost upDown byteWord writeback : Bool)
    (rn rd : BitVec 4) (offset : OffsetForm) : Instr :=
  match op with
  | .LDR => .ldr c prePost upDown byteWord writeback rn rd offset
  | .STR => .str c prePost upDown byteWord writeback rn rd offset

/-- The branch sub-row of a link bit (R181, R182). -/
def Instr.ofLink (link : Bool) (c : ConditionCode) (offset : BitVec 24) : Instr :=
  match link with
  | false => .branchLinkFalse c offset
  | true => .branchLinkTrue c offset

/-- The multiply-long sub-row of bits 22 and 21 (R195). -/
def Instr.ofMultiplyLongBits (b22 accumulate : Bool) (c : ConditionCode) (setFlags : Bool)
    (rdHi rdLo multiplier multiplicand : BitVec 4) : Instr :=
  match b22, accumulate with
  | false, false =>
    .multiplyLongUnsignedTrueAccumulateFalse c setFlags rdHi rdLo multiplier multiplicand
  | false, true =>
    .multiplyLongUnsignedTrueAccumulateTrue c setFlags rdHi rdLo multiplier multiplicand
  | true, false =>
    .multiplyLongUnsignedFalseAccumulateFalse c setFlags rdHi rdLo multiplier multiplicand
  | true, true =>
    .multiplyLongUnsignedFalseAccumulateTrue c setFlags rdHi rdLo multiplier multiplicand

end Sys2Proof
end

