-- ==== Sys2Proof/WellFormed.lean ====
section
/-! DEFINITION. Which instructions are well formed: those whose word lies in the EFFECTIVE region of their
row (`41_format_classifier.md` R89), so that no earlier row of the ordered table takes the word.

Only two rows can lose a word to an earlier one: `DataProcessingPsr`, whose register form with bit 4 set
overlaps rows 1 to 7, and `Undefined`, whose region is empty. No other operand value is checked, because
the block checks none (`00_scope.md` R5, `93_implementation_defined.md` U12). -/

namespace Sys2Proof

/-- Row 1 (R73) takes an indirect form with bits 7:4 = 1001 and bits 27:22 = 0, which the
opcode numbers 0 and 1 have (R143). -/
def WellFormed.takenByMultiply (op : DpOpcode) (shiftRegister : BitVec 5) (shiftType : BitVec 2) :
    Bool :=
  shiftRegister.getLsbD 0 && shiftType == 0b00#2 && [DpOpcode.AND, .EOR].contains op

/-- Row 2 (R74) takes an indirect form with bits 7:4 = 1001 and bits 27:23 = 1, which the
opcode numbers 4 to 7 have. -/
def WellFormed.takenByMultiplyLong (op : DpOpcode) (shiftRegister : BitVec 5)
    (shiftType : BitVec 2) : Bool :=
  shiftRegister.getLsbD 0 && shiftType == 0b00#2 && [DpOpcode.ADD, .ADC, .SBC, .RSC].contains op

/-- Row 3 (R75) takes the indirect form whose bits 27:4 are 0x12FFF1. -/
def WellFormed.takenByBranchAndExchange (op : DpOpcode) (setFlags : Bool) (rn rd : BitVec 4)
    (shiftRegister : BitVec 5) (shiftType : BitVec 2) : Bool :=
  op == .TEQ && !setFlags && rn == 0xF#4 && rd == 0xF#4 && shiftRegister == 0b11110#5
    && shiftType == 0b00#2

/-- Row 4 (R76) takes an indirect form with bits 11:4 = 00001001, bits 27:23 = 2 and bits 21:20 = 0:
`TST` and `CMP` without set-flags. -/
def WellFormed.takenBySingleDataSwap (op : DpOpcode) (setFlags : Bool) (shiftRegister : BitVec 5)
    (shiftType : BitVec 2) : Bool :=
  (op == .TST || op == .CMP) && !setFlags && shiftRegister == 0b00001#5 && shiftType == 0b00#2

/-- Row 5 (R77) takes an indirect form with bits 11:4 = 00001011 and bit 22 = 0, which the
opcode numbers with bit 1 clear have. -/
def WellFormed.takenByHalfwordReg (op : DpOpcode) (shiftRegister : BitVec 5)
    (shiftType : BitVec 2) : Bool :=
  [DpOpcode.AND, .EOR, .ADD, .ADC, .TST, .TEQ, .ORR, .MOV].contains op
    && shiftRegister == 0b00001#5 && shiftType == 0b01#2

/-- Row 6 (R78) takes an indirect form with bits 7:4 = 1011 and bit 22 = 1, which the
opcode numbers with bit 1 set have. -/
def WellFormed.takenByHalfwordImm (op : DpOpcode) (shiftRegister : BitVec 5)
    (shiftType : BitVec 2) : Bool :=
  [DpOpcode.SUB, .RSB, .SBC, .RSC, .CMP, .CMN, .BIC, .MVN].contains op
    && shiftRegister.getLsbD 0 && shiftType == 0b01#2

/-- Row 7 (R79) takes an indirect form with bits 7:6 = 11. -/
def WellFormed.takenBySigned (shiftRegister : BitVec 5) (shiftType : BitVec 2) : Bool :=
  shiftRegister.getLsbD 0 && shiftType.getLsbD 1

/-- A data-processing form that rows 1 to 7 leave to row 8 (`41_format_classifier.md` R89). The
immediate and the direct shape always are: rows 1 to 7 need bit 25 clear and bit 4 set. -/
def WellFormed.dataProcessing (op : DpOpcode) (setFlags : Bool) (rn rd : BitVec 4) : Op2Form → Bool
  | .imm _ _ => true
  | .direct _ _ _ => true
  | .indirect reg ty _ =>
    !takenByMultiply op reg ty && !takenByMultiplyLong op reg ty
      && !takenByBranchAndExchange op setFlags rn rd reg ty
      && !takenBySingleDataSwap op setFlags reg ty && !takenByHalfwordReg op reg ty
      && !takenByHalfwordImm op reg ty && !takenBySigned reg ty

/-- The instruction's word is in the effective region of its own row (`41_format_classifier.md` R89). -/
def Instr.wf : Instr → Bool
  | .multiply _ _ _ => true
  | .multiplyLong _ _ _ _ _ _ _ _ => true
  | .branchAndExchange _ _ => true
  | .singleDataSwap _ _ _ _ => true
  | .halfwordDataTransferReg _ _ _ _ => true
  | .halfwordDataTransferImm _ _ _ _ => true
  | .signedDataTransfer _ _ _ _ => true
  | .dataProcessingPsr _ op f rn rd op2 => WellFormed.dataProcessing op f rn rd op2
  | .loadStore _ _ _ _ _ _ _ _ _ => true
  | .undefined _ _ _ => false
  | .blockDataTransfer _ _ _ => true
  | .branch _ _ _ => true
  | .coprocDataTransfer _ _ => true
  | .coprocDataOp _ _ _ => true
  | .coprocRegTransfer _ _ _ => true
  | .softwareInterrupt _ _ => true
  | .unclassifiedInstruction _ _ _ => true
  | .and _ f rn rd op2 => WellFormed.dataProcessing .AND f rn rd op2
  | .eor _ f rn rd op2 => WellFormed.dataProcessing .EOR f rn rd op2
  | .sub _ f rn rd op2 => WellFormed.dataProcessing .SUB f rn rd op2
  | .rsb _ f rn rd op2 => WellFormed.dataProcessing .RSB f rn rd op2
  | .add _ f rn rd op2 => WellFormed.dataProcessing .ADD f rn rd op2
  | .adc _ f rn rd op2 => WellFormed.dataProcessing .ADC f rn rd op2
  | .sbc _ f rn rd op2 => WellFormed.dataProcessing .SBC f rn rd op2
  | .rsc _ f rn rd op2 => WellFormed.dataProcessing .RSC f rn rd op2
  | .tst _ f rn rd op2 => WellFormed.dataProcessing .TST f rn rd op2
  | .teq _ f rn rd op2 => WellFormed.dataProcessing .TEQ f rn rd op2
  | .cmp _ f rn rd op2 => WellFormed.dataProcessing .CMP f rn rd op2
  | .cmn _ f rn rd op2 => WellFormed.dataProcessing .CMN f rn rd op2
  | .orr _ f rn rd op2 => WellFormed.dataProcessing .ORR f rn rd op2
  | .mov _ f rn rd op2 => WellFormed.dataProcessing .MOV f rn rd op2
  | .bic _ f rn rd op2 => WellFormed.dataProcessing .BIC f rn rd op2
  | .mvn _ f rn rd op2 => WellFormed.dataProcessing .MVN f rn rd op2
  | .ldr _ _ _ _ _ _ _ _ => true
  | .str _ _ _ _ _ _ _ _ => true
  | .branchLinkFalse _ _ => true
  | .branchLinkTrue _ _ => true
  | .multiplyLongUnsignedTrueAccumulateFalse _ _ _ _ _ _ => true
  | .multiplyLongUnsignedTrueAccumulateTrue _ _ _ _ _ _ => true
  | .multiplyLongUnsignedFalseAccumulateFalse _ _ _ _ _ _ => true
  | .multiplyLongUnsignedFalseAccumulateTrue _ _ _ _ _ _ => true

end Sys2Proof
end

