-- ==== Sys2Proof/Decode.lean ====
section
/-! DEFINITION. From stored bytes to an instruction and back.

`decode` reads the table of `30_encoding.md` R42 and R58 as it stands: the mask and match of each format
row in priority order, then the sub-row that the parent's fields select. The Format Classifier of the
block is another definition (`Machine/Classifier.lean`, the field predicates of R73 to R88); that the two
agree is a statement, not a convention. `encode` is written from the same table. -/

namespace Sys2Proof

/-! ## Byte order -/

/-- `20_memory.md` R30: `b0 | b1<<8 | b2<<16 | b3<<24`, `b0` at the lowest position. -/
def assembleWord (b0 b1 b2 b3 : Byte) : Word :=
  b0.setWidth 32 ||| b1.setWidth 32 <<< 8 ||| b2.setWidth 32 <<< 16 ||| b3.setWidth 32 <<< 24

/-- The four bytes that assemble to a word, lowest position first (`20_memory.md` R30). -/
def wordBytes (w : Word) : List Byte :=
  [w.extractLsb' 0 8, w.extractLsb' 8 8, w.extractLsb' 16 8, w.extractLsb' 24 8]

/-! ## Name tables -/

/-- `COND_NAME` of `42_condition_decoder.md` R100 (R101 to R116 one value each). -/
def condName (v : BitVec 4) : ConditionCode :=
  if v = 0 then .EQ else if v = 1 then .NE else if v = 2 then .CS else if v = 3 then .CC
  else if v = 4 then .MI else if v = 5 then .PL else if v = 6 then .VS else if v = 7 then .VC
  else if v = 8 then .HI else if v = 9 then .LS else if v = 10 then .GE else if v = 11 then .LT
  else if v = 12 then .GT else if v = 13 then .LE else if v = 14 then .AL else .NV

/-- The value of bits 31:28 of each condition name (`42_condition_decoder.md` R100, read backwards). -/
def ConditionCode.bits : ConditionCode → BitVec 4
  | .EQ => 0 | .NE => 1 | .CS => 2 | .CC => 3 | .MI => 4 | .PL => 5 | .VS => 6 | .VC => 7
  | .HI => 8 | .LS => 9 | .GE => 10 | .LT => 11 | .GT => 12 | .LE => 13 | .AL => 14 | .NV => 15

/-- `DP_OPCODE_MAP` of `44_data_processing_decoder.md` R143 (R144 to R159 one value each). -/
def dpOpcodeName (v : BitVec 4) : DpOpcode :=
  if v = 0 then .AND else if v = 1 then .EOR else if v = 2 then .SUB else if v = 3 then .RSB
  else if v = 4 then .ADD else if v = 5 then .ADC else if v = 6 then .SBC else if v = 7 then .RSC
  else if v = 8 then .TST else if v = 9 then .TEQ else if v = 10 then .CMP else if v = 11 then .CMN
  else if v = 12 then .ORR else if v = 13 then .MOV else if v = 14 then .BIC else .MVN

/-- The value of bits 24:21 of each opcode name (`44_data_processing_decoder.md` R143, backwards). -/
def DpOpcode.bits : DpOpcode → BitVec 4
  | .AND => 0 | .EOR => 1 | .SUB => 2 | .RSB => 3 | .ADD => 4 | .ADC => 5 | .SBC => 6 | .RSC => 7
  | .TST => 8 | .TEQ => 9 | .CMP => 10 | .CMN => 11 | .ORR => 12 | .MOV => 13 | .BIC => 14 | .MVN => 15

/-- `45_load_store_decoder.md` R171: "opcode = bit20 (1→LDR, 0→STR)". -/
def lsOpcodeName (bit20 : Bool) : LsOpcode := if bit20 then .LDR else .STR

/-- Bit 20 of each load/store opcode name (`45_load_store_decoder.md` R171). -/
def LsOpcode.bit : LsOpcode → Bool
  | .LDR => true
  | .STR => false

/-! ## Reading a word: the rows of `30_encoding.md` R42 -/

/-- "the predicate is `(word & mask) == match`" (`30_encoding.md` R42). -/
def rowMatches (mask pattern w : Word) : Bool := w &&& mask == pattern

/-- Bits 31:28, in every word (`30_encoding.md` R41). -/
def condOf (w : Word) : ConditionCode := condName (w.extractLsb' 28 4)

/-- The operand shape of a data-processing word: bit 25 first, then bit 4 (`30_encoding.md` R51). -/
def op2Of (w : Word) : Op2Form :=
  if w.getLsbD 25 then .imm (w.extractLsb' 8 4) (w.extractLsb' 0 8)
  else if w.getLsbD 4 then
    .indirect (w.extractLsb' 7 5) (w.extractLsb' 5 2) (w.extractLsb' 0 4)
  else .direct (w.extractLsb' 7 5) (w.extractLsb' 5 2) (w.extractLsb' 0 4)

/-- The offset shape of a load/store word (`30_encoding.md` R52). -/
def offsetOf (w : Word) : OffsetForm :=
  if w.getLsbD 25 then
    .shift (w.extractLsb' 7 5) (w.extractLsb' 5 2) (w.getLsbD 4) (w.extractLsb' 0 4)
  else .imm (w.extractLsb' 0 12)

/-- The data-processing sub-row of a word (`30_encoding.md` R43, R58). -/
def dataProcessingOf (w : Word) : Instr :=
  .ofDpOpcode (dpOpcodeName (w.extractLsb' 21 4)) (condOf w) (w.getLsbD 20) (w.extractLsb' 16 4)
    (w.extractLsb' 12 4) (op2Of w)

/-- The load/store sub-row of a word (`30_encoding.md` R44, R58). -/
def loadStoreOf (w : Word) : Instr :=
  .ofLsOpcode (lsOpcodeName (w.getLsbD 20)) (condOf w) (w.getLsbD 24) (w.getLsbD 23) (w.getLsbD 22)
    (w.getLsbD 21) (w.extractLsb' 16 4) (w.extractLsb' 12 4) (offsetOf w)

/-- The multiply-long sub-row of a word (`30_encoding.md` R47, R58). -/
def multiplyLongOf (w : Word) : Instr :=
  .ofMultiplyLongBits (w.getLsbD 22) (w.getLsbD 21) (condOf w) (w.getLsbD 20) (w.extractLsb' 16 4)
    (w.extractLsb' 12 4) (w.extractLsb' 8 4) (w.extractLsb' 0 4)

/-- The instruction of a word: the first format row whose mask and match it meets, and in it the sub-row
(`30_encoding.md` R42, R58). Row 10 stands in its place and is never the first (R54). -/
def decodeWord (w : Word) : Instr :=
  if rowMatches 0x0FC000F0 0x00000090 w then
    .multiply (condOf w) (w.extractLsb' 8 14) (w.extractLsb' 0 4)
  else if rowMatches 0x0F8000F0 0x00800090 w then multiplyLongOf w
  else if rowMatches 0x0FFFFFF0 0x012FFF10 w then .branchAndExchange (condOf w) (w.extractLsb' 0 4)
  else if rowMatches 0x0FB00FF0 0x01000090 w then
    .singleDataSwap (condOf w) (w.getLsbD 22) (w.extractLsb' 12 8) (w.extractLsb' 0 4)
  else if rowMatches 0x0E400FF0 0x000000B0 w then
    .halfwordDataTransferReg (condOf w) (w.extractLsb' 23 2) (w.extractLsb' 12 10)
      (w.extractLsb' 0 4)
  else if rowMatches 0x0E4000F0 0x004000B0 w then
    .halfwordDataTransferImm (condOf w) (w.extractLsb' 23 2) (w.extractLsb' 8 14)
      (w.extractLsb' 0 4)
  else if rowMatches 0x0E0000D0 0x000000D0 w then
    .signedDataTransfer (condOf w) (w.extractLsb' 8 17) (w.getLsbD 5) (w.extractLsb' 0 4)
  else if rowMatches 0x0C000000 0x00000000 w then dataProcessingOf w
  else if rowMatches 0x0C000000 0x04000000 w then loadStoreOf w
  else if rowMatches 0x0E000010 0x06000010 w then
    .undefined (condOf w) (w.extractLsb' 5 20) (w.extractLsb' 0 4)
  else if rowMatches 0x0E400000 0x08000000 w then
    .blockDataTransfer (condOf w) (w.extractLsb' 23 2) (w.extractLsb' 0 22)
  else if rowMatches 0x0E000000 0x0A000000 w then
    .ofLink (w.getLsbD 24) (condOf w) (w.extractLsb' 0 24)
  else if rowMatches 0x0E000000 0x0C000000 w then
    .coprocDataTransfer (condOf w) (w.extractLsb' 0 25)
  else if rowMatches 0x0F000010 0x0E000000 w then
    .coprocDataOp (condOf w) (w.extractLsb' 5 19) (w.extractLsb' 0 4)
  else if rowMatches 0x0F000010 0x0E000010 w then
    .coprocRegTransfer (condOf w) (w.extractLsb' 5 19) (w.extractLsb' 0 4)
  else if rowMatches 0x0F000000 0x0F000000 w then
    .softwareInterrupt (condOf w) (w.extractLsb' 0 24)
  else .unclassifiedInstruction (condOf w) (w.extractLsb' 23 2) (w.extractLsb' 0 22)

/-- Why bytes are no instruction word. -/
inductive DecodeReject where
  /-- Fewer than four bytes are left: no word is presented (`20_memory.md` R32). -/
  | truncated
  deriving DecidableEq, Repr

/-- The instruction at the head of a byte sequence and the bytes after it. Every 32-bit word is some
row's word (the hole is a row of the table), so a sequence of four bytes or more is never rejected. -/
def decode : List Byte → Except DecodeReject (Instr × List Byte)
  | b0 :: b1 :: b2 :: b3 :: rest => .ok (decodeWord (assembleWord b0 b1 b2 b3), rest)
  | _ => .error .truncated

/-- The decoder's answer for a table word of `nbits` bits, its bits above `nbits` being 0; no instruction
is longer than 32 bits (`30_encoding.md` R40). -/
def decodeTableWord (nbits w : Nat) : Option Instr :=
  if nbits ≤ 32 then
    match decode (wordBytes (BitVec.ofNat 32 (w % 2 ^ nbits))) with
    | .ok (i, _) => some i
    | .error _ => none
  else none

/-! ## Writing a word -/

/-- Bit 25 of an operand shape (`30_encoding.md` R51). -/
def Op2Form.bit25 : Op2Form → Bool
  | .imm _ _ => true
  | .direct _ _ _ => false
  | .indirect _ _ _ => false

/-- Bits 11:0 of an operand shape (`30_encoding.md` R43). -/
def Op2Form.low12 : Op2Form → BitVec 12
  | .imm rot v => rot ++ v
  | .direct count ty low => count ++ ty ++ 0#1 ++ low
  | .indirect reg ty low => reg ++ ty ++ 1#1 ++ low

/-- Bit 25 of an offset shape (`30_encoding.md` R52). -/
def OffsetForm.bit25 : OffsetForm → Bool
  | .imm _ => false
  | .shift _ _ _ _ => true

/-- Bits 11:0 of an offset shape (`30_encoding.md` R44). -/
def OffsetForm.low12 : OffsetForm → BitVec 12
  | .imm v => v
  | .shift count ty bit4 reg => count ++ ty ++ BitVec.ofBool bit4 ++ reg

/-- `30_encoding.md` R43: `cccc 00 I oooo S nnnn dddd` and the 12 operand bits. -/
def dpWord (c : ConditionCode) (op : DpOpcode) (setFlags : Bool) (rn rd : BitVec 4) (op2 : Op2Form) :
    Word :=
  c.bits ++ 0b00#2 ++ BitVec.ofBool op2.bit25 ++ op.bits ++ BitVec.ofBool setFlags ++ rn ++ rd
    ++ op2.low12

/-- `30_encoding.md` R44: `cccc 01 I P U B W L nnnn dddd` and the 12 offset bits. -/
def lsWord (c : ConditionCode) (op : LsOpcode) (prePost upDown byteWord writeback : Bool)
    (rn rd : BitVec 4) (offset : OffsetForm) : Word :=
  c.bits ++ 0b01#2 ++ BitVec.ofBool offset.bit25 ++ BitVec.ofBool prePost ++ BitVec.ofBool upDown
    ++ BitVec.ofBool byteWord ++ BitVec.ofBool writeback ++ BitVec.ofBool op.bit ++ rn ++ rd
    ++ offset.low12

/-- `30_encoding.md` R45: `cccc 101 L` and the 24-bit offset. -/
def branchWord (c : ConditionCode) (link : Bool) (offset : BitVec 24) : Word :=
  c.bits ++ 0b101#3 ++ BitVec.ofBool link ++ offset

/-- `30_encoding.md` R46: `cccc`, 0x12FFF1, target. -/
def bxWord (c : ConditionCode) (target : BitVec 4) : Word :=
  c.bits ++ 0x12FFF1#24 ++ target

/-- `30_encoding.md` R47: `cccc 00001 U A S hhhh llll mmmm 1001 nnnn`, `U` being bit 22. -/
def mlWord (c : ConditionCode) (b22 accumulate setFlags : Bool)
    (rdHi rdLo multiplier multiplicand : BitVec 4) : Word :=
  c.bits ++ 0b00001#5 ++ BitVec.ofBool b22 ++ BitVec.ofBool accumulate ++ BitVec.ofBool setFlags
    ++ rdHi ++ rdLo ++ multiplier ++ 0b1001#4 ++ multiplicand

/-- Row 1 of `30_encoding.md` R42. -/
def multiplyWord (c : ConditionCode) (b21_8 : BitVec 14) (b3_0 : BitVec 4) : Word :=
  c.bits ++ 0b000000#6 ++ b21_8 ++ 0b1001#4 ++ b3_0

/-- Row 4 of `30_encoding.md` R42. -/
def swapWord (c : ConditionCode) (b22 : Bool) (b19_12 : BitVec 8) (b3_0 : BitVec 4) : Word :=
  c.bits ++ 0b00010#5 ++ BitVec.ofBool b22 ++ 0b00#2 ++ b19_12 ++ 0b00001001#8 ++ b3_0

/-- Row 5 of `30_encoding.md` R42. -/
def halfwordRegWord (c : ConditionCode) (b24_23 : BitVec 2) (b21_12 : BitVec 10)
    (b3_0 : BitVec 4) : Word :=
  c.bits ++ 0b000#3 ++ b24_23 ++ 0#1 ++ b21_12 ++ 0b00001011#8 ++ b3_0

/-- Row 6 of `30_encoding.md` R42. -/
def halfwordImmWord (c : ConditionCode) (b24_23 : BitVec 2) (b21_8 : BitVec 14)
    (b3_0 : BitVec 4) : Word :=
  c.bits ++ 0b000#3 ++ b24_23 ++ 1#1 ++ b21_8 ++ 0b1011#4 ++ b3_0

/-- Row 7 of `30_encoding.md` R42. -/
def signedWord (c : ConditionCode) (b24_8 : BitVec 17) (b5 : Bool) (b3_0 : BitVec 4) : Word :=
  c.bits ++ 0b000#3 ++ b24_8 ++ 0b11#2 ++ BitVec.ofBool b5 ++ 1#1 ++ b3_0

/-- Row 10 of `30_encoding.md` R42. -/
def undefinedWord (c : ConditionCode) (b24_5 : BitVec 20) (b3_0 : BitVec 4) : Word :=
  c.bits ++ 0b011#3 ++ b24_5 ++ 1#1 ++ b3_0

/-- Row 11 of `30_encoding.md` R42. -/
def blockTransferWord (c : ConditionCode) (b24_23 : BitVec 2) (b21_0 : BitVec 22) : Word :=
  c.bits ++ 0b100#3 ++ b24_23 ++ 0#1 ++ b21_0

/-- Row 13 of `30_encoding.md` R42. -/
def coprocDataTransferWord (c : ConditionCode) (b24_0 : BitVec 25) : Word :=
  c.bits ++ 0b110#3 ++ b24_0

/-- Row 14 of `30_encoding.md` R42. -/
def coprocDataOpWord (c : ConditionCode) (b23_5 : BitVec 19) (b3_0 : BitVec 4) : Word :=
  c.bits ++ 0b1110#4 ++ b23_5 ++ 0#1 ++ b3_0

/-- Row 15 of `30_encoding.md` R42. -/
def coprocRegTransferWord (c : ConditionCode) (b23_5 : BitVec 19) (b3_0 : BitVec 4) : Word :=
  c.bits ++ 0b1110#4 ++ b23_5 ++ 1#1 ++ b3_0

/-- Row 16 of `30_encoding.md` R42. -/
def softwareInterruptWord (c : ConditionCode) (b23_0 : BitVec 24) : Word :=
  c.bits ++ 0b1111#4 ++ b23_0

/-- The hole of `30_encoding.md` R42. -/
def holeWord (c : ConditionCode) (b24_23 : BitVec 2) (b21_0 : BitVec 22) : Word :=
  c.bits ++ 0b100#3 ++ b24_23 ++ 1#1 ++ b21_0

/-- The word of an instruction: its row's fixed bits and its arguments' bits, each in its place. -/
def encode : Instr → Word
  | .multiply c x lo => multiplyWord c x lo
  | .multiplyLong c u a f hi lo m n => mlWord c u a f hi lo m n
  | .branchAndExchange c t => bxWord c t
  | .singleDataSwap c b x lo => swapWord c b x lo
  | .halfwordDataTransferReg c p x lo => halfwordRegWord c p x lo
  | .halfwordDataTransferImm c p x lo => halfwordImmWord c p x lo
  | .signedDataTransfer c x b lo => signedWord c x b lo
  | .dataProcessingPsr c op f rn rd op2 => dpWord c op f rn rd op2
  | .loadStore c op p u b w rn rd off => lsWord c op p u b w rn rd off
  | .undefined c x lo => undefinedWord c x lo
  | .blockDataTransfer c p x => blockTransferWord c p x
  | .branch c l off => branchWord c l off
  | .coprocDataTransfer c x => coprocDataTransferWord c x
  | .coprocDataOp c x lo => coprocDataOpWord c x lo
  | .coprocRegTransfer c x lo => coprocRegTransferWord c x lo
  | .softwareInterrupt c x => softwareInterruptWord c x
  | .unclassifiedInstruction c p x => holeWord c p x
  | .and c f rn rd op2 => dpWord c .AND f rn rd op2
  | .eor c f rn rd op2 => dpWord c .EOR f rn rd op2
  | .sub c f rn rd op2 => dpWord c .SUB f rn rd op2
  | .rsb c f rn rd op2 => dpWord c .RSB f rn rd op2
  | .add c f rn rd op2 => dpWord c .ADD f rn rd op2
  | .adc c f rn rd op2 => dpWord c .ADC f rn rd op2
  | .sbc c f rn rd op2 => dpWord c .SBC f rn rd op2
  | .rsc c f rn rd op2 => dpWord c .RSC f rn rd op2
  | .tst c f rn rd op2 => dpWord c .TST f rn rd op2
  | .teq c f rn rd op2 => dpWord c .TEQ f rn rd op2
  | .cmp c f rn rd op2 => dpWord c .CMP f rn rd op2
  | .cmn c f rn rd op2 => dpWord c .CMN f rn rd op2
  | .orr c f rn rd op2 => dpWord c .ORR f rn rd op2
  | .mov c f rn rd op2 => dpWord c .MOV f rn rd op2
  | .bic c f rn rd op2 => dpWord c .BIC f rn rd op2
  | .mvn c f rn rd op2 => dpWord c .MVN f rn rd op2
  | .ldr c p u b w rn rd off => lsWord c .LDR p u b w rn rd off
  | .str c p u b w rn rd off => lsWord c .STR p u b w rn rd off
  | .branchLinkFalse c off => branchWord c false off
  | .branchLinkTrue c off => branchWord c true off
  | .multiplyLongUnsignedTrueAccumulateFalse c f hi lo m n => mlWord c false false f hi lo m n
  | .multiplyLongUnsignedTrueAccumulateTrue c f hi lo m n => mlWord c false true f hi lo m n
  | .multiplyLongUnsignedFalseAccumulateFalse c f hi lo m n => mlWord c true false f hi lo m n
  | .multiplyLongUnsignedFalseAccumulateTrue c f hi lo m n => mlWord c true true f hi lo m n

/-- The sub-row that an instruction's word decodes to: a parent row with a sub-row for each of its words
is written with the sub-row's constructor, every other instruction stands for itself (log entry 5). -/
def Instr.specific : Instr → Instr
  | .multiplyLong c u a f hi lo m n => .ofMultiplyLongBits u a c f hi lo m n
  | .dataProcessingPsr c op f rn rd op2 => .ofDpOpcode op c f rn rd op2
  | .loadStore c op p u b w rn rd off => .ofLsOpcode op c p u b w rn rd off
  | .branch c l off => .ofLink l c off
  | .multiply c x lo => .multiply c x lo
  | .branchAndExchange c t => .branchAndExchange c t
  | .singleDataSwap c b x lo => .singleDataSwap c b x lo
  | .halfwordDataTransferReg c p x lo => .halfwordDataTransferReg c p x lo
  | .halfwordDataTransferImm c p x lo => .halfwordDataTransferImm c p x lo
  | .signedDataTransfer c x b lo => .signedDataTransfer c x b lo
  | .undefined c x lo => .undefined c x lo
  | .blockDataTransfer c p x => .blockDataTransfer c p x
  | .coprocDataTransfer c x => .coprocDataTransfer c x
  | .coprocDataOp c x lo => .coprocDataOp c x lo
  | .coprocRegTransfer c x lo => .coprocRegTransfer c x lo
  | .softwareInterrupt c x => .softwareInterrupt c x
  | .unclassifiedInstruction c p x => .unclassifiedInstruction c p x
  | .and c f rn rd op2 => .and c f rn rd op2
  | .eor c f rn rd op2 => .eor c f rn rd op2
  | .sub c f rn rd op2 => .sub c f rn rd op2
  | .rsb c f rn rd op2 => .rsb c f rn rd op2
  | .add c f rn rd op2 => .add c f rn rd op2
  | .adc c f rn rd op2 => .adc c f rn rd op2
  | .sbc c f rn rd op2 => .sbc c f rn rd op2
  | .rsc c f rn rd op2 => .rsc c f rn rd op2
  | .tst c f rn rd op2 => .tst c f rn rd op2
  | .teq c f rn rd op2 => .teq c f rn rd op2
  | .cmp c f rn rd op2 => .cmp c f rn rd op2
  | .cmn c f rn rd op2 => .cmn c f rn rd op2
  | .orr c f rn rd op2 => .orr c f rn rd op2
  | .mov c f rn rd op2 => .mov c f rn rd op2
  | .bic c f rn rd op2 => .bic c f rn rd op2
  | .mvn c f rn rd op2 => .mvn c f rn rd op2
  | .ldr c p u b w rn rd off => .ldr c p u b w rn rd off
  | .str c p u b w rn rd off => .str c p u b w rn rd off
  | .branchLinkFalse c off => .branchLinkFalse c off
  | .branchLinkTrue c off => .branchLinkTrue c off
  | .multiplyLongUnsignedTrueAccumulateFalse c f hi lo m n =>
    .multiplyLongUnsignedTrueAccumulateFalse c f hi lo m n
  | .multiplyLongUnsignedTrueAccumulateTrue c f hi lo m n =>
    .multiplyLongUnsignedTrueAccumulateTrue c f hi lo m n
  | .multiplyLongUnsignedFalseAccumulateFalse c f hi lo m n =>
    .multiplyLongUnsignedFalseAccumulateFalse c f hi lo m n
  | .multiplyLongUnsignedFalseAccumulateTrue c f hi lo m n =>
    .multiplyLongUnsignedFalseAccumulateTrue c f hi lo m n

/-- The condition of an instruction word: every row carries it (`30_encoding.md` R41). -/
def Instr.cond : Instr → ConditionCode
  | .multiply c _ _ => c
  | .multiplyLong c _ _ _ _ _ _ _ => c
  | .branchAndExchange c _ => c
  | .singleDataSwap c _ _ _ => c
  | .halfwordDataTransferReg c _ _ _ => c
  | .halfwordDataTransferImm c _ _ _ => c
  | .signedDataTransfer c _ _ _ => c
  | .dataProcessingPsr c _ _ _ _ _ => c
  | .loadStore c _ _ _ _ _ _ _ _ => c
  | .undefined c _ _ => c
  | .blockDataTransfer c _ _ => c
  | .branch c _ _ => c
  | .coprocDataTransfer c _ => c
  | .coprocDataOp c _ _ => c
  | .coprocRegTransfer c _ _ => c
  | .softwareInterrupt c _ => c
  | .unclassifiedInstruction c _ _ => c
  | .and c _ _ _ _ => c
  | .eor c _ _ _ _ => c
  | .sub c _ _ _ _ => c
  | .rsb c _ _ _ _ => c
  | .add c _ _ _ _ => c
  | .adc c _ _ _ _ => c
  | .sbc c _ _ _ _ => c
  | .rsc c _ _ _ _ => c
  | .tst c _ _ _ _ => c
  | .teq c _ _ _ _ => c
  | .cmp c _ _ _ _ => c
  | .cmn c _ _ _ _ => c
  | .orr c _ _ _ _ => c
  | .mov c _ _ _ _ => c
  | .bic c _ _ _ _ => c
  | .mvn c _ _ _ _ => c
  | .ldr c _ _ _ _ _ _ _ => c
  | .str c _ _ _ _ _ _ _ => c
  | .branchLinkFalse c _ => c
  | .branchLinkTrue c _ => c
  | .multiplyLongUnsignedTrueAccumulateFalse c _ _ _ _ _ => c
  | .multiplyLongUnsignedTrueAccumulateTrue c _ _ _ _ _ => c
  | .multiplyLongUnsignedFalseAccumulateFalse c _ _ _ _ _ => c
  | .multiplyLongUnsignedFalseAccumulateTrue c _ _ _ _ _ => c

/-- The format of an instruction's row, the key "format" of `spec/opcode_table.json`; the hole has none. -/
def Instr.rowFormat : Instr → Option InstructionFormat
  | .multiply _ _ _ => some .multiply
  | .multiplyLong _ _ _ _ _ _ _ _ => some .multiplyLong
  | .branchAndExchange _ _ => some .branchAndExchange
  | .singleDataSwap _ _ _ _ => some .singleDataSwap
  | .halfwordDataTransferReg _ _ _ _ => some .halfwordDataTransferReg
  | .halfwordDataTransferImm _ _ _ _ => some .halfwordDataTransferImm
  | .signedDataTransfer _ _ _ _ => some .signedDataTransfer
  | .dataProcessingPsr _ _ _ _ _ _ => some .dataProcessingPsr
  | .loadStore _ _ _ _ _ _ _ _ _ => some .loadStore
  | .undefined _ _ _ => some .undefined
  | .blockDataTransfer _ _ _ => some .blockDataTransfer
  | .branch _ _ _ => some .branch
  | .coprocDataTransfer _ _ => some .coprocDataTransfer
  | .coprocDataOp _ _ _ => some .coprocDataOp
  | .coprocRegTransfer _ _ _ => some .coprocRegTransfer
  | .softwareInterrupt _ _ => some .softwareInterrupt
  | .unclassifiedInstruction _ _ _ => none
  | .and _ _ _ _ _ => some .dataProcessingPsr
  | .eor _ _ _ _ _ => some .dataProcessingPsr
  | .sub _ _ _ _ _ => some .dataProcessingPsr
  | .rsb _ _ _ _ _ => some .dataProcessingPsr
  | .add _ _ _ _ _ => some .dataProcessingPsr
  | .adc _ _ _ _ _ => some .dataProcessingPsr
  | .sbc _ _ _ _ _ => some .dataProcessingPsr
  | .rsc _ _ _ _ _ => some .dataProcessingPsr
  | .tst _ _ _ _ _ => some .dataProcessingPsr
  | .teq _ _ _ _ _ => some .dataProcessingPsr
  | .cmp _ _ _ _ _ => some .dataProcessingPsr
  | .cmn _ _ _ _ _ => some .dataProcessingPsr
  | .orr _ _ _ _ _ => some .dataProcessingPsr
  | .mov _ _ _ _ _ => some .dataProcessingPsr
  | .bic _ _ _ _ _ => some .dataProcessingPsr
  | .mvn _ _ _ _ _ => some .dataProcessingPsr
  | .ldr _ _ _ _ _ _ _ _ => some .loadStore
  | .str _ _ _ _ _ _ _ _ => some .loadStore
  | .branchLinkFalse _ _ => some .branch
  | .branchLinkTrue _ _ => some .branch
  | .multiplyLongUnsignedTrueAccumulateFalse _ _ _ _ _ _ => some .multiplyLong
  | .multiplyLongUnsignedTrueAccumulateTrue _ _ _ _ _ _ => some .multiplyLong
  | .multiplyLongUnsignedFalseAccumulateFalse _ _ _ _ _ _ => some .multiplyLong
  | .multiplyLongUnsignedFalseAccumulateTrue _ _ _ _ _ _ => some .multiplyLong

end Sys2Proof
end

