-- ==== Sys2Proof/Machine/State.lean ====
section
/-! DEFINITION. The output records of the block (`10_state.md` section 3), the state, the reasons a step
can stop, and reset.

The block itself holds no state (`10_state.md` R10), so no field of `State` belongs to it. What a run needs
and the spec gives is held by the two parties around the block: the byte-source collaborator's byte
sequence, byte offset and word count (`20_memory.md` R30, R31), and the caller's position in the word
sequence and output sequence (R36). -/

namespace Sys2Proof.Machine

/-! ## Output records -/

/-- The `shift_type` of a record: the raw bits 6:5 and their label under `SHIFT_TYPE_MAP`
(`10_state.md` R16: "A record that carries a `shift_type` carries the raw 2-bit value"). -/
structure ShiftField where
  raw : BitVec 2
  label : ShiftType
  deriving DecidableEq, Repr

/-- `10_state.md` R17. Neither register shape has a field for bits 3:0 (R160), and `shiftRegister` is
5 bits wide (R161). -/
inductive Operand2 where
  | immediateRotate (rotateCount : BitVec 4) (immValue : BitVec 8)
  | shiftRegisterDirect (shiftCount : BitVec 5) (shiftType : ShiftField)
  | shiftRegisterIndirect (shiftRegister : BitVec 5) (shiftType : ShiftField)
  deriving DecidableEq, Repr

/-- `10_state.md` R18. -/
inductive Offset where
  | immOffset (imm : BitVec 12)
  | shiftOffset (shiftCount : BitVec 5) (shiftType : ShiftField) (register : BitVec 4)
  deriving DecidableEq, Repr

/-- `10_state.md` R19. -/
structure DataProcessingInstruction where
  condition : ConditionCode
  opcode : DpOpcode
  rd : BitVec 4
  rn : BitVec 4
  operand2 : Operand2
  setFlags : Bool
  deriving DecidableEq, Repr

/-- `10_state.md` R20. Each flag is a Boolean equal to its bit; no side of a two-sided name is chosen
(`45_load_store_decoder.md` R176). -/
structure LoadStoreInstruction where
  condition : ConditionCode
  opcode : LsOpcode
  rd : BitVec 4
  rn : BitVec 4
  writeback : Bool
  byteWord : Bool
  upDown : Bool
  prePost : Bool
  offset : Offset
  deriving DecidableEq, Repr

/-- `10_state.md` R21; `offset` is raw, unsigned and unscaled (`46_branch_decoders.md` R183). -/
structure BranchInstruction where
  condition : ConditionCode
  link : Bool
  offset : BitVec 24
  deriving DecidableEq, Repr

/-- `10_state.md` R22. -/
structure BranchExchangeInstruction where
  condition : ConditionCode
  target : BitVec 4
  deriving DecidableEq, Repr

/-- `10_state.md` R23. -/
structure MultiplyLongInstruction where
  condition : ConditionCode
  isUnsigned : Bool
  accumulate : Bool
  setFlags : Bool
  rdHi : BitVec 4
  rdLo : BitVec 4
  multiplier : BitVec 4
  multiplicand : BitVec 4
  deriving DecidableEq, Repr

/-- `10_state.md` R24: the two errors a fallible operation returns (`60_exceptions.md` R201, R202). -/
inductive DecodeError where
  | unclassifiedInstruction (word : Word)
  | formatMismatch (expected actual : InstructionFormat)
  deriving DecidableEq, Repr

/-- The result of a fallible operation: `Ok(v)` or `Err(e)`, an ordinary value and never a trap
(`60_exceptions.md` R200); an `Err` carries no record (R205). -/
inductive Result (α : Type) where
  | ok (value : α)
  | err (error : DecodeError)
  deriving DecidableEq, Repr

/-- Every output of the block for one word, all present at once (`70_reset_and_hazards.md` R220): one
field per operation of `60_exceptions.md` R204 whose only argument is the word. -/
structure Outputs where
  classify : Result InstructionFormat
  condition : ConditionCode
  coarseRaw : BitVec 2
  coarseClass : Option CoarseClass
  op2ImmediateBit : Bool
  setFlagsBit : Bool
  rn : BitVec 4
  rd : BitVec 4
  shiftRegisterForm : BitVec 8 × BitVec 4
  rotateImmediateForm : BitVec 4 × BitVec 8
  operand2Raw : BitVec 12
  dataProcessing : Result DataProcessingInstruction
  loadStore : Result LoadStoreInstruction
  branch : Result BranchInstruction
  branchExchange : Result BranchExchangeInstruction
  multiplyLong : Result MultiplyLongInstruction
  deriving DecidableEq, Repr

/-! ## State -/

/-- The byte source: (position, byte) pairs in canonical form, positions strictly rising (`Memory.wf` in
`Machine/Ops.lean`). A position that is not listed holds no byte (`20_memory.md` R37: "every byte
position `p` for which the four bytes exist"). -/
abbrev Memory := List Host.Cell

/-- The parties around the stateless block. -/
structure State where
  /-- The collaborator's passive byte sequence (`20_memory.md` R38). -/
  bytes : Memory
  /-- The byte offset of word 0 (`20_memory.md` R31). -/
  offset : Nat
  /-- The number of words the caller asked for (`20_memory.md` R31). -/
  count : Nat
  /-- The index in the word sequence of the next word to be presented (`20_memory.md` R36). -/
  position : Nat
  /-- The output sequence so far, one entry per word presented, in order (`20_memory.md` R36). -/
  outputs : List Outputs
  deriving DecidableEq, Repr

/-- No fault exists: "there is no fault bit, no stuck state and no refusal inside the block"
(`60_exceptions.md` R200). Nothing raises one. -/
inductive Fault where
  deriving DecidableEq, Repr

/-- Why a step presents no word or answers nothing. -/
inductive Refusal where
  /-- Raised by the dispatcher for an instruction without a meaning. Safe: the run stops. -/
  | notModelled (mnemonic : String)
  /-- Raised by the fetch: the byte source has fewer than four bytes at `position`, so no word is
  presented (`20_memory.md` R32, `93_implementation_defined.md` U15). Safe: the run stops. -/
  | insufficientBytes (position : Nat)
  /-- Raised by the step: every word the caller asked for has its output, the run is over
  (`70_reset_and_hazards.md` R225). Safe: the run stops. -/
  | sequenceEnded
  deriving DecidableEq, Repr

/-- Reset. The block has nothing to reset (`10_state.md` R27, `70_reset_and_hazards.md` R221); the byte
source is empty and the caller has asked for nothing (DESIGN CHOICE, unsafe: log entry 2). -/
def State.reset : State where
  bytes := []
  offset := 0
  count := 0
  position := 0
  outputs := []

end Sys2Proof.Machine
end

