-- ==== Sys2Proof/Machine/Ops.lean ====
section
/-! DEFINITION. The shared operations: the Bit-Field Extractor, the byte source, the word sequence, the
check every decoder makes before it reads a field, and the delivery of one output. -/

namespace Sys2Proof.Machine

/-! ## Bit-Field Extractor (`40_bitfield_extractor.md`) -/

/-- The domain of `extract` (`40_bitfield_extractor.md` R60, R62). -/
abbrev ExtractDomain (lsb msb : Nat) : Prop := lsb ≤ msb ∧ msb ≤ 31

/-- `extract(word, lsb, msb)`, low end first (`40_bitfield_extractor.md` R60), on exact naturals so that
the mask does not overflow (R61). A call outside the domain cannot be written (R62). -/
def extract (word : Word) (lsb msb : Nat) (_h : ExtractDomain lsb msb := by decide) : Nat :=
  let mask := (1 <<< (msb - lsb + 1)) - 1
  (word.toNat >>> lsb) &&& mask

/-- `extract` for a caller whose arguments are not known beforehand: a call outside the domain is refused
(`40_bitfield_extractor.md` R62). -/
def extractChecked (word : Word) (lsb msb : Nat) : Option Nat :=
  if h : ExtractDomain lsb msb then some (extract word lsb msb h) else none

/-- One bit of the word as a Boolean, true when the bit is 1. -/
def bit (word : Word) (i : Nat) (h : ExtractDomain i i := by decide) : Bool :=
  extract word i i h == 1

/-! ## Byte source (`20_memory.md`) -/

/-- The canonical form: positions strictly rising. -/
def Memory.wf : Memory → Bool
  | [] => true
  | [_] => true
  | a :: b :: rest => decide (a.1 < b.1) && Memory.wf (b :: rest)

/-- `ByteRead(p)`, if the byte exists (`20_memory.md` R30, R37). -/
def Memory.read : Memory → Nat → Option Byte
  | [], _ => none
  | c :: rest, p => if c.1 = p then some c.2 else Memory.read rest p

/-- The environment puts one byte at a position; no operation of the block does (`20_memory.md` R34). -/
def Memory.write : Memory → Nat → Byte → Memory
  | [], p, b => [(p, b)]
  | c :: rest, p, b =>
    if p < c.1 then (p, b) :: c :: rest
    else if p = c.1 then (p, b) :: rest
    else c :: Memory.write rest p b

/-- The environment puts consecutive bytes from a position on. -/
def Memory.writeBytes : Memory → Nat → List Byte → Memory
  | m, _, [] => m
  | m, p, b :: rest => Memory.writeBytes (Memory.write m p b) (p + 1) rest

/-- The bytes that exist at `p`, `p + 1`, …, at most `k`, up to the first that does not. -/
def Memory.readBytes (m : Memory) (p : Nat) : Nat → List Byte
  | 0 => []
  | k + 1 =>
    match Memory.read m p with
    | none => []
    | some b => b :: Memory.readBytes m (p + 1) k

/-- `word(p)` of `20_memory.md` R30, at any byte position at which the four bytes exist, aligned or not
(R37). -/
def Memory.wordAt (m : Memory) (p : Nat) : Option Word :=
  match Memory.read m p, Memory.read m (p + 1), Memory.read m (p + 2), Memory.read m (p + 3) with
  | some b0, some b1, some b2, some b3 => some (assembleWord b0 b1 b2 b3)
  | _, _, _, _ => none

/-- `word(off), word(off+4), ..., word(off+4*(n-1))` of `20_memory.md` R31, if all their bytes exist. -/
def Memory.wordSequence (m : Memory) (off : Nat) : Nat → Option (List Word)
  | 0 => some []
  | n + 1 =>
    match Memory.wordAt m off, Memory.wordSequence m (off + 4) n with
    | some w, some ws => some (w :: ws)
    | _, _ => none

/-- The byte position of the next word (`20_memory.md` R31). -/
def State.wordAddress (s : State) : Nat := s.offset + 4 * s.position

/-- The word the next step presents, if one is left and its four bytes exist. -/
def State.nextWord (s : State) : Option Word :=
  if s.position < s.count then Memory.wordAt s.bytes s.wordAddress else none

/-! ## Errors and delivery -/

/-- The one way an operation of the block fails, shared by the five decoders, in the order of
`60_exceptions.md` R203: first whether `classify` failed, then whether the format differs, and only then
the record. The block takes no exception: an error is the value of the result, it saves nothing, changes
nothing and transfers control nowhere (R200, R208), and there is nothing to return from (R209). -/
def requireFormat {α : Type} (expected : InstructionFormat) (classified : Result InstructionFormat)
    (record : α) : Result α :=
  match classified with
  | .err e => .err e
  | .ok f => if f = expected then .ok record else .err (.formatMismatch expected f)

/-- One output is delivered to the caller: it occupies the present position of the output sequence, and
the next word is the next position (`20_memory.md` R36, `10_state.md` R26). -/
def State.append (s : State) (o : Outputs) : State :=
  { s with position := s.position + 1, outputs := s.outputs ++ [o] }

end Sys2Proof.Machine
end

