-- ==== Sys2Proof/Machine/Classifier.lean ====
section
/-! DEFINITION. The Format Classifier (`41_format_classifier.md`): the sixteen predicates, the ordered
table, and the first match. -/

namespace Sys2Proof.Machine

/-- Row 1 (R73). -/
def isMultiply (w : Word) : Bool := extract w 22 27 == 0 && extract w 4 7 == 0b1001

/-- Row 2 (R74). -/
def isMultiplyLong (w : Word) : Bool := extract w 23 27 == 1 && extract w 4 7 == 0b1001

/-- Row 3 (R75). -/
def isBranchAndExchange (w : Word) : Bool := extract w 4 27 == 0b0001_0010_1111_1111_1111_0001

/-- Row 4 (R76). -/
def isSingleDataSwap (w : Word) : Bool :=
  extract w 23 27 == 0b00010 && extract w 20 21 == 0 && extract w 4 11 == 0b0000_1001

/-- Row 5 (R77). -/
def isHalfwordDataTransferReg (w : Word) : Bool :=
  extract w 25 27 == 0 && extract w 22 22 == 0 && extract w 4 11 == 0b0000_1011

/-- Row 6 (R78). -/
def isHalfwordDataTransferImm (w : Word) : Bool :=
  extract w 25 27 == 0 && extract w 22 22 == 1 && extract w 4 7 == 0b1011

/-- Row 7 (R79). -/
def isSignedDataTransfer (w : Word) : Bool :=
  extract w 25 27 == 0 && extract w 6 7 == 0b11 && extract w 4 4 == 1

/-- Row 8 (R80). -/
def isDataProcessingPsr (w : Word) : Bool := extract w 26 27 == 0

/-- Row 9 (R81). -/
def isLoadStore (w : Word) : Bool := extract w 26 27 == 0b01

/-- Row 10 (R82), shadowed by row 9. -/
def isUndefined (w : Word) : Bool := extract w 25 27 == 0b011 && extract w 4 4 == 1

/-- Row 11 (R83). -/
def isBlockDataTransfer (w : Word) : Bool := extract w 25 27 == 0b100 && extract w 22 22 == 0

/-- Row 12 (R84). -/
def isBranch (w : Word) : Bool := extract w 25 27 == 0b101

/-- Row 13 (R85). -/
def isCoprocDataTransfer (w : Word) : Bool := extract w 25 27 == 0b110

/-- Row 14 (R86). -/
def isCoprocDataOp (w : Word) : Bool := extract w 24 27 == 0b1110 && extract w 4 4 == 0

/-- Row 15 (R87). -/
def isCoprocRegTransfer (w : Word) : Bool := extract w 24 27 == 0b1110 && extract w 4 4 == 1

/-- Row 16 (R88). -/
def isSoftwareInterrupt (w : Word) : Bool := extract w 24 27 == 0b1111

/-- "an explicit, order-preserving list of (predicate, format) pairs" (`41_format_classifier.md` R70). -/
def predicateTable : List ((Word → Bool) × InstructionFormat) :=
  [(isMultiply, .multiply), (isMultiplyLong, .multiplyLong),
   (isBranchAndExchange, .branchAndExchange), (isSingleDataSwap, .singleDataSwap),
   (isHalfwordDataTransferReg, .halfwordDataTransferReg),
   (isHalfwordDataTransferImm, .halfwordDataTransferImm),
   (isSignedDataTransfer, .signedDataTransfer), (isDataProcessingPsr, .dataProcessingPsr)]
  ++
  [(isLoadStore, .loadStore), (isUndefined, .undefined), (isBlockDataTransfer, .blockDataTransfer),
   (isBranch, .branch), (isCoprocDataTransfer, .coprocDataTransfer),
   (isCoprocDataOp, .coprocDataOp), (isCoprocRegTransfer, .coprocRegTransfer),
   (isSoftwareInterrupt, .softwareInterrupt)]

/-- "evaluated top to bottom; the first matching predicate wins" (`41_format_classifier.md` R70). -/
def firstMatch (w : Word) : List ((Word → Bool) × InstructionFormat) → Result InstructionFormat
  | [] => .err (.unclassifiedInstruction w)
  | (p, f) :: rest => if p w then .ok f else firstMatch w rest

/-- `classify(word)` (`41_format_classifier.md` R70). -/
def classify (w : Word) : Result InstructionFormat := firstMatch w predicateTable

/-- The order-free procedure of `41_format_classifier.md` R94, a cross-check and not the definition. -/
def classifyTree (w : Word) : Result InstructionFormat :=
  if extract w 26 27 = 0b00 then
    if extract w 25 25 = 1 then .ok .dataProcessingPsr
    else if extract w 4 7 = 0b1001 then
      if extract w 22 27 = 0 then .ok .multiply
      else if extract w 23 27 = 1 then .ok .multiplyLong
      else if extract w 23 27 = 2 ∧ extract w 20 21 = 0 ∧ extract w 8 11 = 0 then
        .ok .singleDataSwap
      else .ok .dataProcessingPsr
    else if extract w 4 7 = 0b0001 then
      if extract w 8 27 = 0x12FFF then .ok .branchAndExchange else .ok .dataProcessingPsr
    else if extract w 4 7 = 0b1011 then
      if extract w 22 22 = 1 then .ok .halfwordDataTransferImm
      else if extract w 8 11 = 0 then .ok .halfwordDataTransferReg
      else .ok .dataProcessingPsr
    else if extract w 4 7 = 0b1101 ∨ extract w 4 7 = 0b1111 then .ok .signedDataTransfer
    else .ok .dataProcessingPsr
  else if extract w 26 27 = 0b01 then .ok .loadStore
  else if extract w 26 27 = 0b10 then
    if extract w 25 25 = 1 then .ok .branch
    else if extract w 22 22 = 0 then .ok .blockDataTransfer
    else .err (.unclassifiedInstruction w)
  else
    if extract w 25 25 = 0 then .ok .coprocDataTransfer
    else if extract w 24 24 = 1 then .ok .softwareInterrupt
    else if extract w 4 4 = 0 then .ok .coprocDataOp
    else .ok .coprocRegTransfer

end Sys2Proof.Machine
end

