-- ==== Sys2Proof/Machine/Flags.lean ====
section
/-! DEFINITION. The one-bit fields of the records and of the facade.

The block holds and writes no processor flag (`10_state.md` R11); every "flag" here is a bit of the word
that a record reports. Each is a Boolean equal to its bit, except `isUnsigned`, the only field of the
block that is the complement of its bit (`47_multiply_long_decoder.md` R192). -/

namespace Sys2Proof.Machine

/-- Bit 25 (`43_instruction_facade.md` R122). -/
def op2ImmediateBit (w : Word) : Bool := bit w 25

/-- Bit 20 (`43_instruction_facade.md` R123; also the record field of R141 and R194). -/
def setFlagsBit (w : Word) : Bool := bit w 20

/-- "writeback=bit21" (`45_load_store_decoder.md` R171). -/
def writeback (w : Word) : Bool := bit w 21

/-- "byte/word=bit22" (`45_load_store_decoder.md` R171). -/
def byteWord (w : Word) : Bool := bit w 22

/-- "up/down=bit23" (`45_load_store_decoder.md` R171). -/
def upDown (w : Word) : Bool := bit w 23

/-- "pre/post=bit24" (`45_load_store_decoder.md` R171). -/
def prePost (w : Word) : Bool := bit w 24

/-- "link=bit24" (`46_branch_decoders.md` R180). -/
def link (w : Word) : Bool := bit w 24

/-- "unsigned = (bit22==0)" (`47_multiply_long_decoder.md` R190, R192). -/
def isUnsigned (w : Word) : Bool := extract w 22 22 == 0

/-- "accumulate=(bit21==1)" (`47_multiply_long_decoder.md` R190, R193). -/
def accumulate (w : Word) : Bool := bit w 21

end Sys2Proof.Machine
end

