-- ==== Sys2Proof/Machine/Operands.lean ====
section
/-! DEFINITION. The fields wider than one bit: condition, register indices, and every operand form
(`30_encoding.md` section 5). Every field is the raw unsigned value of its bit range: nothing is rotated,
doubled, scaled, sign-extended or given a sign (R50). -/

namespace Sys2Proof.Machine

/-- `42_condition_decoder.md` R100: `COND_NAME[bits[31:28]]`, for every word. -/
def condition (w : Word) : ConditionCode := condName (.ofNat 4 (extract w 28 31))

/-- Bits 19:16 (`43_instruction_facade.md` R124). -/
def rn (w : Word) : BitVec 4 := .ofNat 4 (extract w 16 19)

/-- Bits 15:12 (`43_instruction_facade.md` R125). -/
def rd (w : Word) : BitVec 4 := .ofNat 4 (extract w 12 15)

/-- `SHIFT_TYPE_MAP` in list order (`10_state.md` R16, the spec's decision D7: log entry 6). -/
def shiftTypeName (v : BitVec 2) : ShiftType :=
  if v = 0 then .logicalLeft else if v = 1 then .logicalRight
  else if v = 2 then .arithmeticLeft else .arithmeticRight

/-- The `shift_type` of a record: bits 6:5, raw and named (`10_state.md` R16). -/
def shiftField (w : Word) : ShiftField :=
  { raw := .ofNat 2 (extract w 5 6), label := shiftTypeName (.ofNat 2 (extract w 5 6)) }

/-- `decode_operand2` of `44_data_processing_decoder.md` R142: bit 25 first, bit 4 only when it is 0. -/
def decodeOperand2 (w : Word) : Operand2 :=
  if extract w 25 25 = 1 then
    .immediateRotate (.ofNat 4 (extract w 8 11)) (.ofNat 8 (extract w 0 7))
  else if extract w 4 4 = 0 then
    .shiftRegisterDirect (.ofNat 5 (extract w 7 11)) (shiftField w)
  else .shiftRegisterIndirect (.ofNat 5 (extract w 7 11)) (shiftField w)

/-- `decode_offset` of `45_load_store_decoder.md` R174: the sense of bit 25 is the reverse of R142, and
bit 4 is not read (R175). -/
def decodeOffset (w : Word) : Offset :=
  if extract w 25 25 = 1 then
    .shiftOffset (.ofNat 5 (extract w 7 11)) (shiftField w) (.ofNat 4 (extract w 0 3))
  else .immOffset (.ofNat 12 (extract w 0 11))

end Sys2Proof.Machine
end

