-- ==== Sys2Proof/Machine/Decoders.lean ====
section
/-! DEFINITION. The five format-specific decoders of the block. Each classifies the word itself
(`92_eei_decisions.md` D4), returns the error of `60_exceptions.md` R203 where the word is not of its
format, and otherwise a record of raw fields. There are five and no more (`00_scope.md` R2,
`30_encoding.md` R49). -/

namespace Sys2Proof.Machine

/-- `decode_data_processing` (`44_data_processing_decoder.md` R140 to R143). -/
def decodeDataProcessing (w : Word) : Result DataProcessingInstruction :=
  requireFormat .dataProcessingPsr (classify w)
    { condition := condition w
      opcode := dpOpcodeName (.ofNat 4 (extract w 21 24))
      rd := rd w
      rn := rn w
      operand2 := decodeOperand2 w
      setFlags := setFlagsBit w }

/-- `decode_load_store` (`45_load_store_decoder.md` R170, R171, R174). -/
def decodeLoadStore (w : Word) : Result LoadStoreInstruction :=
  requireFormat .loadStore (classify w)
    { condition := condition w
      opcode := lsOpcodeName (bit w 20)
      rd := rd w
      rn := rn w
      writeback := writeback w
      byteWord := byteWord w
      upDown := upDown w
      prePost := prePost w
      offset := decodeOffset w }

/-- `decode_branch` (`46_branch_decoders.md` R180, R183). -/
def decodeBranch (w : Word) : Result BranchInstruction :=
  requireFormat .branch (classify w)
    { condition := condition w
      link := link w
      offset := .ofNat 24 (extract w 0 23) }

/-- `decode_branch_exchange` (`46_branch_decoders.md` R185). -/
def decodeBranchExchange (w : Word) : Result BranchExchangeInstruction :=
  requireFormat .branchAndExchange (classify w)
    { condition := condition w
      target := .ofNat 4 (extract w 0 3) }

/-- `decode_multiply_long` (`47_multiply_long_decoder.md` R190 to R194). -/
def decodeMultiplyLong (w : Word) : Result MultiplyLongInstruction :=
  requireFormat .multiplyLong (classify w)
    { condition := condition w
      isUnsigned := isUnsigned w
      accumulate := accumulate w
      setFlags := setFlagsBit w
      rdHi := .ofNat 4 (extract w 16 19)
      rdLo := .ofNat 4 (extract w 12 15)
      multiplier := .ofNat 4 (extract w 8 11)
      multiplicand := .ofNat 4 (extract w 0 3) }

end Sys2Proof.Machine
end

