-- ==== Sys2Proof/Config.lean ====
section
/-! DEFINITION. What the spec leaves to the implementation: the one OPEN parameter, `COARSE_MAP`
(`00_scope.md` R7, `92_eei_decisions.md` D8). -/

namespace Sys2Proof

/-- The type of `COARSE_MAP`: a class, or no class, for each value of bits 27:26. -/
abbrev CoarseMap := BitVec 2 → Option CoarseClass

/-- `COARSE_MAP` of the machine, a FREE VALUE: it has no body, so nothing can evaluate it and every
statement about the machine holds for every map (DESIGN CHOICE, safe: log entry 4). -/
opaque Config.coarseMap : CoarseMap

/-- The default the spec offers for `COARSE_MAP` (`43_instruction_facade.md` R121). The machine does not
use it; a statement that speaks of the default names it. -/
def Config.defaultCoarseMap : CoarseMap := fun v =>
  if v = 0b00#2 then some .dataProcessing
  else if v = 0b01#2 then some .memoryProcessing
  else if v = 0b10#2 then some .branch
  else none

end Sys2Proof
end

