-- ==== Sys2Proof/Machine/Facade.lean ====
section
/-! DEFINITION. The Instruction Facade (`43_instruction_facade.md`): format-agnostic accessors, each
defined on every word and independent of the classifier (R120). The accessors of one bit stand in
`Flags.lean`, `rn` and `rd` in `Operands.lean`. -/

namespace Sys2Proof.Machine

/-- Bits 27:26, exact whatever the map (`43_instruction_facade.md` R121). -/
def coarseRaw (w : Word) : BitVec 2 := .ofNat 2 (extract w 26 27)

/-- `COARSE_MAP[bits[27:26]]`, the map taken as an argument (`43_instruction_facade.md` R121). -/
def coarseClass (map : CoarseMap) (w : Word) : Option CoarseClass := map (coarseRaw w)

/-- `(bits[11:4], bits[3:0])` (`43_instruction_facade.md` R126). -/
def shiftRegisterForm (w : Word) : BitVec 8 × BitVec 4 :=
  (.ofNat 8 (extract w 4 11), .ofNat 4 (extract w 0 3))

/-- `(bits[11:8], bits[7:0])` (`43_instruction_facade.md` R127). -/
def rotateImmediateForm (w : Word) : BitVec 4 × BitVec 8 :=
  (.ofNat 4 (extract w 8 11), .ofNat 8 (extract w 0 7))

/-- `bits[11:0]` (`43_instruction_facade.md` R128). -/
def operand2Raw (w : Word) : BitVec 12 := .ofNat 12 (extract w 0 11)

end Sys2Proof.Machine
end

