-- ==== Sys2Proof/Machine/Block.lean ====
section
/-! DEFINITION. The whole block: every output as a function of the one word presented
(`70_reset_and_hazards.md` R220), and the presenting of a word. -/

namespace Sys2Proof.Machine

/-- All outputs for one word; the only other argument is the OPEN parameter `COARSE_MAP`. -/
def blockOutputs (map : CoarseMap) (w : Word) : Outputs where
  classify := classify w
  condition := condition w
  coarseRaw := coarseRaw w
  coarseClass := coarseClass map w
  op2ImmediateBit := op2ImmediateBit w
  setFlagsBit := setFlagsBit w
  rn := rn w
  rd := rd w
  shiftRegisterForm := shiftRegisterForm w
  rotateImmediateForm := rotateImmediateForm w
  operand2Raw := operand2Raw w
  dataProcessing := decodeDataProcessing w
  loadStore := decodeLoadStore w
  branch := decodeBranch w
  branchExchange := decodeBranchExchange w
  multiplyLong := decodeMultiplyLong w

/-- The output sequence for a word sequence: one entry per word, in order, an error occupying its
position like any other output (`20_memory.md` R36). -/
def blockSequence (map : CoarseMap) (ws : List Word) : List Outputs := ws.map (blockOutputs map)

/-- A word is presented to the block and its outputs are delivered to the caller. This is what every
instruction word does to this hardware, and all it does: it is decoded and reported, never executed
(`00_scope.md` R4, `60_exceptions.md` R200). -/
def present (w : Word) (s : State) : Host.Outcome State Fault Refusal :=
  .next (s.append (blockOutputs Config.coarseMap w))

end Sys2Proof.Machine
end

