-- ==== Sys2Proof/Machine/Branches.lean ====
section
/-! DEFINITION. Meanings of the branch family: the format row `Branch`, its two link sub-rows, and
`BranchAndExchange`. The word is presented; no target is computed, no link register is written, and the
next word presented is the next of the sequence whatever the branch says (`46_branch_decoders.md`,
`10_state.md` R26). -/

namespace Sys2Proof.Machine

/-- Row 12 (`41_format_classifier.md` R84; decoded as `46_branch_decoders.md` R180, R183 say). -/
def execBranch (c : ConditionCode) (link : Bool) (offset : BitVec 24) (s : State) :
    Host.Outcome State Fault Refusal :=
  present (branchWord c link offset) s

/-- A branch without link (`46_branch_decoders.md` R181). -/
def execBranchLinkFalse (c : ConditionCode) (offset : BitVec 24) (s : State) :
    Host.Outcome State Fault Refusal :=
  present (branchWord c false offset) s

/-- A branch with link (`46_branch_decoders.md` R182). -/
def execBranchLinkTrue (c : ConditionCode) (offset : BitVec 24) (s : State) :
    Host.Outcome State Fault Refusal :=
  present (branchWord c true offset) s

/-- Row 3 (`41_format_classifier.md` R75; decoded as `46_branch_decoders.md` R185, R186 say). -/
def execBranchAndExchange (c : ConditionCode) (target : BitVec 4) (s : State) :
    Host.Outcome State Fault Refusal :=
  present (bxWord c target) s

end Sys2Proof.Machine
end

