-- ==== Sys2Proof/Machine/DataProcessing.lean ====
section
/-! DEFINITION. Meanings of the data-processing family: the format row `DataProcessingPsr` and its sixteen
opcode sub-rows. The word is presented; the block classifies it, names its opcode and reports its fields
(`44_data_processing_decoder.md`). The operation the name stands for is never performed (`00_scope.md` R4),
and no operand is checked (R162). -/

namespace Sys2Proof.Machine

/-- Row 8 (`41_format_classifier.md` R80; decoded as R140 to R142 say). -/
def execDataProcessingPsr (c : ConditionCode) (op : DpOpcode) (setFlags : Bool) (rn rd : BitVec 4)
    (op2 : Op2Form) (s : State) : Host.Outcome State Fault Refusal :=
  present (dpWord c op setFlags rn rd op2) s

/-- "`bits[24:21] == 0` decodes to opcode `AND`" (`44_data_processing_decoder.md` R144). -/
def execAnd (c : ConditionCode) (setFlags : Bool) (rn rd : BitVec 4) (op2 : Op2Form) (s : State) :
    Host.Outcome State Fault Refusal :=
  present (dpWord c .AND setFlags rn rd op2) s

/-- "`bits[24:21] == 1` decodes to opcode `EOR`" (`44_data_processing_decoder.md` R145). -/
def execEor (c : ConditionCode) (setFlags : Bool) (rn rd : BitVec 4) (op2 : Op2Form) (s : State) :
    Host.Outcome State Fault Refusal :=
  present (dpWord c .EOR setFlags rn rd op2) s

/-- "`bits[24:21] == 2` decodes to opcode `SUB`" (`44_data_processing_decoder.md` R146). -/
def execSub (c : ConditionCode) (setFlags : Bool) (rn rd : BitVec 4) (op2 : Op2Form) (s : State) :
    Host.Outcome State Fault Refusal :=
  present (dpWord c .SUB setFlags rn rd op2) s

/-- "`bits[24:21] == 3` decodes to opcode `RSB`" (`44_data_processing_decoder.md` R147). -/
def execRsb (c : ConditionCode) (setFlags : Bool) (rn rd : BitVec 4) (op2 : Op2Form) (s : State) :
    Host.Outcome State Fault Refusal :=
  present (dpWord c .RSB setFlags rn rd op2) s

/-- "`bits[24:21] == 4` decodes to opcode `ADD`" (`44_data_processing_decoder.md` R148). -/
def execAdd (c : ConditionCode) (setFlags : Bool) (rn rd : BitVec 4) (op2 : Op2Form) (s : State) :
    Host.Outcome State Fault Refusal :=
  present (dpWord c .ADD setFlags rn rd op2) s

/-- "`bits[24:21] == 5` decodes to opcode `ADC`" (`44_data_processing_decoder.md` R149). -/
def execAdc (c : ConditionCode) (setFlags : Bool) (rn rd : BitVec 4) (op2 : Op2Form) (s : State) :
    Host.Outcome State Fault Refusal :=
  present (dpWord c .ADC setFlags rn rd op2) s

/-- "`bits[24:21] == 6` decodes to opcode `SBC`" (`44_data_processing_decoder.md` R150). -/
def execSbc (c : ConditionCode) (setFlags : Bool) (rn rd : BitVec 4) (op2 : Op2Form) (s : State) :
    Host.Outcome State Fault Refusal :=
  present (dpWord c .SBC setFlags rn rd op2) s

/-- "`bits[24:21] == 7` decodes to opcode `RSC`" (`44_data_processing_decoder.md` R151). -/
def execRsc (c : ConditionCode) (setFlags : Bool) (rn rd : BitVec 4) (op2 : Op2Form) (s : State) :
    Host.Outcome State Fault Refusal :=
  present (dpWord c .RSC setFlags rn rd op2) s

/-- "`bits[24:21] == 8` decodes to opcode `TST`" (`44_data_processing_decoder.md` R152). -/
def execTst (c : ConditionCode) (setFlags : Bool) (rn rd : BitVec 4) (op2 : Op2Form) (s : State) :
    Host.Outcome State Fault Refusal :=
  present (dpWord c .TST setFlags rn rd op2) s

/-- "`bits[24:21] == 9` decodes to opcode `TEQ`" (`44_data_processing_decoder.md` R153). -/
def execTeq (c : ConditionCode) (setFlags : Bool) (rn rd : BitVec 4) (op2 : Op2Form) (s : State) :
    Host.Outcome State Fault Refusal :=
  present (dpWord c .TEQ setFlags rn rd op2) s

/-- "`bits[24:21] == 10` decodes to opcode `CMP`" (`44_data_processing_decoder.md` R154). -/
def execCmp (c : ConditionCode) (setFlags : Bool) (rn rd : BitVec 4) (op2 : Op2Form) (s : State) :
    Host.Outcome State Fault Refusal :=
  present (dpWord c .CMP setFlags rn rd op2) s

/-- "`bits[24:21] == 11` decodes to opcode `CMN`" (`44_data_processing_decoder.md` R155). -/
def execCmn (c : ConditionCode) (setFlags : Bool) (rn rd : BitVec 4) (op2 : Op2Form) (s : State) :
    Host.Outcome State Fault Refusal :=
  present (dpWord c .CMN setFlags rn rd op2) s

/-- "`bits[24:21] == 12` decodes to opcode `ORR`" (`44_data_processing_decoder.md` R156). -/
def execOrr (c : ConditionCode) (setFlags : Bool) (rn rd : BitVec 4) (op2 : Op2Form) (s : State) :
    Host.Outcome State Fault Refusal :=
  present (dpWord c .ORR setFlags rn rd op2) s

/-- "`bits[24:21] == 13` decodes to opcode `MOV`" (`44_data_processing_decoder.md` R157). -/
def execMov (c : ConditionCode) (setFlags : Bool) (rn rd : BitVec 4) (op2 : Op2Form) (s : State) :
    Host.Outcome State Fault Refusal :=
  present (dpWord c .MOV setFlags rn rd op2) s

/-- "`bits[24:21] == 14` decodes to opcode `BIC`" (`44_data_processing_decoder.md` R158). -/
def execBic (c : ConditionCode) (setFlags : Bool) (rn rd : BitVec 4) (op2 : Op2Form) (s : State) :
    Host.Outcome State Fault Refusal :=
  present (dpWord c .BIC setFlags rn rd op2) s

/-- "`bits[24:21] == 15` decodes to opcode `MVN`" (`44_data_processing_decoder.md` R159). -/
def execMvn (c : ConditionCode) (setFlags : Bool) (rn rd : BitVec 4) (op2 : Op2Form) (s : State) :
    Host.Outcome State Fault Refusal :=
  present (dpWord c .MVN setFlags rn rd op2) s

end Sys2Proof.Machine
end

