-- ==== Sys2Proof/Machine/FormatOnly.lean ====
section
/-! DEFINITION. Meanings of the rows that have no field decoder (`30_encoding.md` R49): ten formats that are
classified and nothing more, and the hole. The word is presented; the block's whole answer is its format
(or the error), its condition and the facade's raw extractions, and each decoder's error. -/

namespace Sys2Proof.Machine

/-- Row 1 (`41_format_classifier.md` R73). -/
def execMultiply (c : ConditionCode) (b21_8 : BitVec 14) (b3_0 : BitVec 4)
    (s : State) : Host.Outcome State Fault Refusal :=
  present (multiplyWord c b21_8 b3_0) s

/-- Row 4 (`41_format_classifier.md` R76). -/
def execSingleDataSwap (c : ConditionCode) (b22 : Bool) (b19_12 : BitVec 8) (b3_0 : BitVec 4)
    (s : State) : Host.Outcome State Fault Refusal :=
  present (swapWord c b22 b19_12 b3_0) s

/-- Row 5 (`41_format_classifier.md` R77). -/
def execHalfwordDataTransferReg (c : ConditionCode) (b24_23 : BitVec 2) (b21_12 : BitVec 10) (b3_0 : BitVec 4)
    (s : State) : Host.Outcome State Fault Refusal :=
  present (halfwordRegWord c b24_23 b21_12 b3_0) s

/-- Row 6 (`41_format_classifier.md` R78). -/
def execHalfwordDataTransferImm (c : ConditionCode) (b24_23 : BitVec 2) (b21_8 : BitVec 14) (b3_0 : BitVec 4)
    (s : State) : Host.Outcome State Fault Refusal :=
  present (halfwordImmWord c b24_23 b21_8 b3_0) s

/-- Row 7 (`41_format_classifier.md` R79). -/
def execSignedDataTransfer (c : ConditionCode) (b24_8 : BitVec 17) (b5 : Bool) (b3_0 : BitVec 4)
    (s : State) : Host.Outcome State Fault Refusal :=
  present (signedWord c b24_8 b5 b3_0) s

/-- Row 11 (`41_format_classifier.md` R83). -/
def execBlockDataTransfer (c : ConditionCode) (b24_23 : BitVec 2) (b21_0 : BitVec 22)
    (s : State) : Host.Outcome State Fault Refusal :=
  present (blockTransferWord c b24_23 b21_0) s

/-- Row 13 (`41_format_classifier.md` R85). -/
def execCoprocDataTransfer (c : ConditionCode) (b24_0 : BitVec 25)
    (s : State) : Host.Outcome State Fault Refusal :=
  present (coprocDataTransferWord c b24_0) s

/-- Row 14 (`41_format_classifier.md` R86). -/
def execCoprocDataOp (c : ConditionCode) (b23_5 : BitVec 19) (b3_0 : BitVec 4)
    (s : State) : Host.Outcome State Fault Refusal :=
  present (coprocDataOpWord c b23_5 b3_0) s

/-- Row 15 (`41_format_classifier.md` R87). -/
def execCoprocRegTransfer (c : ConditionCode) (b23_5 : BitVec 19) (b3_0 : BitVec 4)
    (s : State) : Host.Outcome State Fault Refusal :=
  present (coprocRegTransferWord c b23_5 b3_0) s

/-- Row 16; it raises no interrupt (`60_exceptions.md` R207) (`41_format_classifier.md` R88). -/
def execSoftwareInterrupt (c : ConditionCode) (b23_0 : BitVec 24)
    (s : State) : Host.Outcome State Fault Refusal :=
  present (softwareInterruptWord c b23_0) s

/-- The hole (`41_format_classifier.md` R90): `classify` and all five decoders return
`UnclassifiedInstruction(word)`, an ordinary value of this position; the run goes on
(`60_exceptions.md` R200, R201, `20_memory.md` R36). -/
def execUnclassifiedInstruction (c : ConditionCode) (b24_23 : BitVec 2) (b21_0 : BitVec 22)
    (s : State) : Host.Outcome State Fault Refusal :=
  present (holeWord c b24_23 b21_0) s

end Sys2Proof.Machine
end

