-- ==== Sys2Proof/Machine/LoadStore.lean ====
section
/-! DEFINITION. Meanings of the load/store family: the format row `LoadStore`, its sub-rows `LDR` and
`STR`, and the shadowed row `Undefined`. The word is presented; no address is computed and nothing is
loaded or stored (`45_load_store_decoder.md`, `20_memory.md` R34). -/

namespace Sys2Proof.Machine

/-- Row 9 (`41_format_classifier.md` R81; decoded as `45_load_store_decoder.md` R170 to R174 say). -/
def execLoadStore (c : ConditionCode) (op : LsOpcode) (prePost upDown byteWord writeback : Bool)
    (rn rd : BitVec 4) (offset : OffsetForm) (s : State) : Host.Outcome State Fault Refusal :=
  present (lsWord c op prePost upDown byteWord writeback rn rd offset) s

/-- "`bits[20] == 1` decodes to opcode `LDR`" (`45_load_store_decoder.md` R172). -/
def execLdr (c : ConditionCode) (prePost upDown byteWord writeback : Bool) (rn rd : BitVec 4)
    (offset : OffsetForm) (s : State) : Host.Outcome State Fault Refusal :=
  present (lsWord c .LDR prePost upDown byteWord writeback rn rd offset) s

/-- "`bits[20] == 0` decodes to opcode `STR`" (`45_load_store_decoder.md` R173). -/
def execStr (c : ConditionCode) (prePost upDown byteWord writeback : Bool) (rn rd : BitVec 4)
    (offset : OffsetForm) (s : State) : Host.Outcome State Fault Refusal :=
  present (lsWord c .STR prePost upDown byteWord writeback rn rd offset) s

/-- Row 10, the shadowed row (`41_format_classifier.md` R82): the word is presented like any other, row 9
is the first match, and the Load/Store decoder accepts it (`45_load_store_decoder.md` R175). -/
def execUndefined (c : ConditionCode) (b24_5 : BitVec 20) (b3_0 : BitVec 4) (s : State) :
    Host.Outcome State Fault Refusal :=
  present (undefinedWord c b24_5 b3_0) s

end Sys2Proof.Machine
end

