-- ==== Sys2Proof/Machine/MultiplyLong.lean ====
section
/-! DEFINITION. Meanings of the multiply-long family: the format row `MultiplyLong` and its four sub-rows
by `unsigned` and `accumulate`; set-flags is an argument of each (`47_multiply_long_decoder.md` R195). The
word is presented; nothing is multiplied and no register combination is rejected (R196). -/

namespace Sys2Proof.Machine

/-- Row 2 (`41_format_classifier.md` R74; decoded as `47_multiply_long_decoder.md` R190 to R194 say). -/
def execMultiplyLong (c : ConditionCode) (b22 accumulate setFlags : Bool)
    (rdHi rdLo multiplier multiplicand : BitVec 4) (s : State) : Host.Outcome State Fault Refusal :=
  present (mlWord c b22 accumulate setFlags rdHi rdLo multiplier multiplicand) s

/-- unsigned = true (bit 22 is 0), accumulate = false (`47_multiply_long_decoder.md` R192, R193, R195). -/
def execMultiplyLongUnsignedTrueAccumulateFalse (c : ConditionCode) (setFlags : Bool)
    (rdHi rdLo multiplier multiplicand : BitVec 4) (s : State) : Host.Outcome State Fault Refusal :=
  present (mlWord c false false setFlags rdHi rdLo multiplier multiplicand) s

/-- unsigned = true (bit 22 is 0), accumulate = true (`47_multiply_long_decoder.md` R192, R193, R195). -/
def execMultiplyLongUnsignedTrueAccumulateTrue (c : ConditionCode) (setFlags : Bool)
    (rdHi rdLo multiplier multiplicand : BitVec 4) (s : State) : Host.Outcome State Fault Refusal :=
  present (mlWord c false true setFlags rdHi rdLo multiplier multiplicand) s

/-- unsigned = false (bit 22 is 1), accumulate = false (`47_multiply_long_decoder.md` R192, R193, R195). -/
def execMultiplyLongUnsignedFalseAccumulateFalse (c : ConditionCode) (setFlags : Bool)
    (rdHi rdLo multiplier multiplicand : BitVec 4) (s : State) : Host.Outcome State Fault Refusal :=
  present (mlWord c true false setFlags rdHi rdLo multiplier multiplicand) s

/-- unsigned = false (bit 22 is 1), accumulate = true (`47_multiply_long_decoder.md` R192, R193, R195). -/
def execMultiplyLongUnsignedFalseAccumulateTrue (c : ConditionCode) (setFlags : Bool)
    (rdHi rdLo multiplier multiplicand : BitVec 4) (s : State) : Host.Outcome State Fault Refusal :=
  present (mlWord c true true setFlags rdHi rdLo multiplier multiplicand) s

end Sys2Proof.Machine
end

