-- ==== Sys2Proof/Machine/Dispatch.lean ====
section
/-! DEFINITION. One arm per constructor of `Instr`, each one direct call of that row's meaning. -/

namespace Sys2Proof.Machine

def exec (i : Instr) (s : State) : Host.Outcome State Fault Refusal :=
  match i with
  | .multiply c x lo => Sys2Proof.Machine.execMultiply c x lo s
  | .multiplyLong c u a f hi lo m n => Sys2Proof.Machine.execMultiplyLong c u a f hi lo m n s
  | .branchAndExchange c t => Sys2Proof.Machine.execBranchAndExchange c t s
  | .singleDataSwap c b x lo => Sys2Proof.Machine.execSingleDataSwap c b x lo s
  | .halfwordDataTransferReg c p x lo => Sys2Proof.Machine.execHalfwordDataTransferReg c p x lo s
  | .halfwordDataTransferImm c p x lo => Sys2Proof.Machine.execHalfwordDataTransferImm c p x lo s
  | .signedDataTransfer c x b lo => Sys2Proof.Machine.execSignedDataTransfer c x b lo s
  | .dataProcessingPsr c op f rn rd op2 => Sys2Proof.Machine.execDataProcessingPsr c op f rn rd op2 s
  | .loadStore c op p u b w rn rd off => Sys2Proof.Machine.execLoadStore c op p u b w rn rd off s
  | .undefined c x lo => Sys2Proof.Machine.execUndefined c x lo s
  | .blockDataTransfer c p x => Sys2Proof.Machine.execBlockDataTransfer c p x s
  | .branch c l off => Sys2Proof.Machine.execBranch c l off s
  | .coprocDataTransfer c x => Sys2Proof.Machine.execCoprocDataTransfer c x s
  | .coprocDataOp c x lo => Sys2Proof.Machine.execCoprocDataOp c x lo s
  | .coprocRegTransfer c x lo => Sys2Proof.Machine.execCoprocRegTransfer c x lo s
  | .softwareInterrupt c x => Sys2Proof.Machine.execSoftwareInterrupt c x s
  | .unclassifiedInstruction c p x => Sys2Proof.Machine.execUnclassifiedInstruction c p x s
  | .and c f rn rd op2 => Sys2Proof.Machine.execAnd c f rn rd op2 s
  | .eor c f rn rd op2 => Sys2Proof.Machine.execEor c f rn rd op2 s
  | .sub c f rn rd op2 => Sys2Proof.Machine.execSub c f rn rd op2 s
  | .rsb c f rn rd op2 => Sys2Proof.Machine.execRsb c f rn rd op2 s
  | .add c f rn rd op2 => Sys2Proof.Machine.execAdd c f rn rd op2 s
  | .adc c f rn rd op2 => Sys2Proof.Machine.execAdc c f rn rd op2 s
  | .sbc c f rn rd op2 => Sys2Proof.Machine.execSbc c f rn rd op2 s
  | .rsc c f rn rd op2 => Sys2Proof.Machine.execRsc c f rn rd op2 s
  | .tst c f rn rd op2 => Sys2Proof.Machine.execTst c f rn rd op2 s
  | .teq c f rn rd op2 => Sys2Proof.Machine.execTeq c f rn rd op2 s
  | .cmp c f rn rd op2 => Sys2Proof.Machine.execCmp c f rn rd op2 s
  | .cmn c f rn rd op2 => Sys2Proof.Machine.execCmn c f rn rd op2 s
  | .orr c f rn rd op2 => Sys2Proof.Machine.execOrr c f rn rd op2 s
  | .mov c f rn rd op2 => Sys2Proof.Machine.execMov c f rn rd op2 s
  | .bic c f rn rd op2 => Sys2Proof.Machine.execBic c f rn rd op2 s
  | .mvn c f rn rd op2 => Sys2Proof.Machine.execMvn c f rn rd op2 s
  | .ldr c p u b w rn rd off => Sys2Proof.Machine.execLdr c p u b w rn rd off s
  | .str c p u b w rn rd off => Sys2Proof.Machine.execStr c p u b w rn rd off s
  | .branchLinkFalse c off => Sys2Proof.Machine.execBranchLinkFalse c off s
  | .branchLinkTrue c off => Sys2Proof.Machine.execBranchLinkTrue c off s
  | .multiplyLongUnsignedTrueAccumulateFalse c f hi lo m n => Sys2Proof.Machine.execMultiplyLongUnsignedTrueAccumulateFalse c f hi lo m n s
  | .multiplyLongUnsignedTrueAccumulateTrue c f hi lo m n => Sys2Proof.Machine.execMultiplyLongUnsignedTrueAccumulateTrue c f hi lo m n s
  | .multiplyLongUnsignedFalseAccumulateFalse c f hi lo m n => Sys2Proof.Machine.execMultiplyLongUnsignedFalseAccumulateFalse c f hi lo m n s
  | .multiplyLongUnsignedFalseAccumulateTrue c f hi lo m n => Sys2Proof.Machine.execMultiplyLongUnsignedFalseAccumulateTrue c f hi lo m n s

end Sys2Proof.Machine
end

