-- ==== Sys2Proof/Machine/Step.lean ====
section
/-! DEFINITION. One step: the next word of the sequence is assembled, decoded and presented to the block.

The source gives no order of evaluation, any will do (`20_memory.md` R35); the model takes the words in
program order, one a step (log entry 3). -/

namespace Sys2Proof.Machine

/-- One step. While a word is left (`70_reset_and_hazards.md` R225), its four bytes are read at
`offset + 4 * position` (`20_memory.md` R31) and the instruction they decode to is run; without four bytes
no word is presented (R32). -/
def step (s : State) : Host.Outcome State Fault Refusal :=
  if s.position < s.count then
    match decode (Memory.readBytes s.bytes s.wordAddress 4) with
    | .ok (i, _) => exec i s
    | .error .truncated => .refused (.insufficientBytes s.wordAddress)
  else .refused .sequenceEnded

/-- `s` with the word `w` of `nbits` bits as the next word of the sequence: its four bytes stand where the
next step reads them, and the caller has asked for at least that word (log entry 2). -/
def State.withFetchWord (s : State) (nbits w : Nat) : State :=
  { s with
    bytes := Memory.writeBytes s.bytes s.wordAddress (wordBytes (BitVec.ofNat 32 (w % 2 ^ nbits)))
    count := max s.count (s.position + 1) }

end Sys2Proof.Machine
end

