-- ==== Sys2Proof/Machine/Ports.lean ====
section
/-! DEFINITION. The bit-level encoding of the outputs on a port (`10_state.md` R29). Every number here is
the spec's own choice (`92_eei_decisions.md` D3, D5, D7): nothing else of the model depends on them. The
codes of `ConditionCode`, `DpOpcode` and `LsOpcode` are the word's own bits and stand in `Decode.lean`;
a Boolean is one bit, 1 true (`BitVec.ofBool`). -/

namespace Sys2Proof.Machine

/-- 4 bits, the row number minus 1. -/
def formatCode : InstructionFormat → BitVec 4
  | .multiply => 0 | .multiplyLong => 1 | .branchAndExchange => 2 | .singleDataSwap => 3
  | .halfwordDataTransferReg => 4 | .halfwordDataTransferImm => 5 | .signedDataTransfer => 6
  | .dataProcessingPsr => 7 | .loadStore => 8 | .undefined => 9 | .blockDataTransfer => 10
  | .branch => 11 | .coprocDataTransfer => 12 | .coprocDataOp => 13 | .coprocRegTransfer => 14
  | .softwareInterrupt => 15

/-- 2 bits: 0 `Ok`, 1 `UnclassifiedInstruction`, 2 `FormatMismatch`; 3 is never produced. -/
def statusCode {α : Type} : Result α → BitVec 2
  | .ok _ => 0
  | .err (.unclassifiedInstruction _) => 1
  | .err (.formatMismatch _ _) => 2

/-- The payload lines of a status that is not `Ok` (`92_eei_decisions.md` D5): the word of status 1, the
two format codes, expected and actual, of status 2. A record has no lines here: while the status is not
`Ok` they carry no meaning (`60_exceptions.md` R205). -/
def errorPayload : DecodeError → Word ⊕ BitVec 4 × BitVec 4
  | .unclassifiedInstruction w => .inl w
  | .formatMismatch expected actual => .inr (formatCode expected, formatCode actual)

/-- 2 bits, equal to bits 6:5 of the word. -/
def shiftTypeCode : ShiftType → BitVec 2
  | .logicalLeft => 0 | .logicalRight => 1 | .arithmeticLeft => 2 | .arithmeticRight => 3

/-- 2 bits; 3 is never produced. -/
def operand2Tag : Operand2 → BitVec 2
  | .immediateRotate _ _ => 0
  | .shiftRegisterDirect _ _ => 1
  | .shiftRegisterIndirect _ _ => 2

/-- 1 bit, equal to bit 25 of the word. -/
def offsetTag : Offset → BitVec 1
  | .immOffset _ => 0
  | .shiftOffset _ _ _ => 1

/-- 2 bits; under the default `COARSE_MAP` equal to bits 27:26 of the word. -/
def coarseClassCode : Option CoarseClass → BitVec 2
  | some .dataProcessing => 0
  | some .memoryProcessing => 1
  | some .branch => 2
  | none => 3

end Sys2Proof.Machine
end

