-- ==== Sys2Proof/Safety.lean ====
section
/-! DEFINITION. What counts as a safe run, and the terms the statements use. -/

namespace Sys2Proof.Machine

/-- A word is left and its four bytes exist: what the environment must provide before a step
(`70_reset_and_hazards.md` R223, `20_memory.md` R31, R32). -/
def State.WordReady (s : State) : Prop :=
  s.position < s.count ∧ (Memory.wordAt s.bytes s.wordAddress).isSome = true

/-- A step is safe when it delivers an output. -/
def SafeStep (s : State) : Prop := ∃ t, step s = .next t

/-- A run of `k` steps is safe when every step delivers an output. -/
def SafeRun (k : Nat) (s : State) : Prop := ∃ t, Host.Core.run Sys2Proof.core k s = .next t

/-- The invariant of every run: the byte source is canonical, and the output sequence holds, for each
position presented so far and for no other, the block's outputs for the word at that position
(`20_memory.md` R36). -/
structure State.Inv (s : State) : Prop where
  canonical : Memory.wf s.bytes = true
  withinCount : s.position ≤ s.count
  onePerWord : s.outputs.length = s.position
  positional : ∀ j, j < s.position →
    ∃ w, Memory.wordAt s.bytes (s.offset + 4 * j) = some w
      ∧ s.outputs[j]? = some (blockOutputs Config.coarseMap w)

/-- Each decoder whose format is not `f` reports `FormatMismatch` with its own format as `expected` and
`f` as `actual` (`60_exceptions.md` R202). -/
def Outputs.MismatchesExcept (o : Outputs) (f : InstructionFormat) : Prop :=
  (f ≠ .dataProcessingPsr → o.dataProcessing = .err (.formatMismatch .dataProcessingPsr f))
  ∧ (f ≠ .loadStore → o.loadStore = .err (.formatMismatch .loadStore f))
  ∧ (f ≠ .branch → o.branch = .err (.formatMismatch .branch f))
  ∧ (f ≠ .branchAndExchange →
      o.branchExchange = .err (.formatMismatch .branchAndExchange f))
  ∧ (f ≠ .multiplyLong → o.multiplyLong = .err (.formatMismatch .multiplyLong f))

/-- The facade's part of an output is read from the word `w` by position alone
(`43_instruction_facade.md` R121 to R128). -/
def Outputs.FacadeOf (o : Outputs) (w : Word) : Prop :=
  o.coarseRaw = w.extractLsb' 26 2
  ∧ o.coarseClass = Config.coarseMap (w.extractLsb' 26 2)
  ∧ o.op2ImmediateBit = w.getLsbD 25
  ∧ o.setFlagsBit = w.getLsbD 20
  ∧ o.rn = w.extractLsb' 16 4
  ∧ o.rd = w.extractLsb' 12 4
  ∧ o.shiftRegisterForm = (w.extractLsb' 4 8, w.extractLsb' 0 4)
  ∧ o.rotateImmediateForm = (w.extractLsb' 8 4, w.extractLsb' 0 8)
  ∧ o.operand2Raw = w.extractLsb' 0 12

/-- A word agrees with another outside the bit range of `len` bits from `lo` on. -/
def AgreeOutside (lo len : Nat) (w v : Word) : Prop :=
  ∀ k, ¬(lo ≤ k ∧ k < lo + len) → w.getLsbD k = v.getLsbD k

/-- The `operand2` a data-processing record holds for an operand form: bits 3:0 are left out
(`10_state.md` R17, `44_data_processing_decoder.md` R160). -/
def operand2Of : Op2Form → Operand2
  | .imm rot v => .immediateRotate rot v
  | .direct count ty _ => .shiftRegisterDirect count ⟨ty, shiftTypeName ty⟩
  | .indirect reg ty _ => .shiftRegisterIndirect reg ⟨ty, shiftTypeName ty⟩

/-- The `offset` a load/store record holds for an offset form: bit 4 is left out (`10_state.md` R18,
`45_load_store_decoder.md` R175). -/
def offsetRecordOf : OffsetForm → Offset
  | .imm v => .immOffset v
  | .shift count ty _ reg => .shiftOffset count ⟨ty, shiftTypeName ty⟩ reg

end Sys2Proof.Machine
end

