-- ==== Sys2Proof/Certificates/Slice0/Obligations.lean ====
section
/-! DEFINITION. The statements for the provers, one `Prop` each. `OBLIGATIONS.json` lists them with the
rules of `spec/` they rest on. Slices of a word are written here with `BitVec.extractLsb'` (start, length)
and `getLsbD`, not with the model's own `extract`, so that a slip in the extractor shows. -/

open Sys2Proof Sys2Proof.Machine

/-! ## Bit-Field Extractor -/

/-- `40_bitfield_extractor.md` R60, R61. -/
def Obligations.ExtractIsRightJustifiedField : Prop :=
  (∀ (w : Word) (lsb msb : Nat) (h : ExtractDomain lsb msb),
      extract w lsb msb h < 2 ^ (msb - lsb + 1)
      ∧ (∀ k, k ≤ msb - lsb → (extract w lsb msb h).testBit k = w.getLsbD (lsb + k)))
  ∧ (∀ w : Word, extract w 0 31 = w.toNat)
  ∧ (∀ (w : Word) (i : Nat) (h : ExtractDomain i i), extract w i i h = (w.getLsbD i).toNat)
  ∧ extract 0xE3A00301 21 24 = 13
  ∧ extract 0xFFFFFFFF 0 31 = 0xFFFFFFFF
  ∧ extract 0x80000000 31 31 = 1

/-- `40_bitfield_extractor.md` R62; the refusal is the spec's decision D10. -/
def Obligations.ExtractOutsideDomainIsRefused : Prop :=
  ∀ (w : Word) (lsb msb : Nat),
    (∀ h : ExtractDomain lsb msb, extractChecked w lsb msb = some (extract w lsb msb h))
    ∧ (¬ ExtractDomain lsb msb → extractChecked w lsb msb = none)

/-! ## Word assembly -/

/-- `20_memory.md` R30. -/
def Obligations.WordAssemblyIsLittleEndian : Prop :=
  (∀ b0 b1 b2 b3 : Byte,
      (assembleWord b0 b1 b2 b3).extractLsb' 0 8 = b0
      ∧ (assembleWord b0 b1 b2 b3).extractLsb' 8 8 = b1
      ∧ (assembleWord b0 b1 b2 b3).extractLsb' 16 8 = b2
      ∧ (assembleWord b0 b1 b2 b3).extractLsb' 24 8 = b3)
  ∧ (∀ (m : Memory) (p : Nat) (w : Word), Memory.wordAt m p = some w ↔
      ∃ b0 b1 b2 b3, Memory.read m p = some b0 ∧ Memory.read m (p + 1) = some b1
        ∧ Memory.read m (p + 2) = some b2 ∧ Memory.read m (p + 3) = some b3
        ∧ w = assembleWord b0 b1 b2 b3)
  ∧ assembleWord 0xDE 0xEA 0xBE 0xEF = 0xEFBEEADE

/-- `20_memory.md` R31, the stride of 4 being the spec's own derivation. -/
def Obligations.WordSequenceTakesConsecutiveWords : Prop :=
  ∀ (m : Memory) (off n : Nat) (ws : List Word),
    Memory.wordSequence m off n = some ws ↔
      ws.length = n ∧ ∀ i, i < n → Memory.wordAt m (off + 4 * i) = ws[i]?

/-! ## Condition Decoder -/

/-- `42_condition_decoder.md` R100, with R101 to R116: the sixteen values, one name each; the name depends
on bits 31:28 and on nothing else, and no two values share a name. -/
def Obligations.ConditionNamesEachNibble : Prop :=
  (∀ w : Word,
    (w.extractLsb' 28 4 = 0#4 → condition w = .EQ) ∧ (w.extractLsb' 28 4 = 1#4 → condition w = .NE)
    ∧ (w.extractLsb' 28 4 = 2#4 → condition w = .CS) ∧ (w.extractLsb' 28 4 = 3#4 → condition w = .CC)
    ∧ (w.extractLsb' 28 4 = 4#4 → condition w = .MI) ∧ (w.extractLsb' 28 4 = 5#4 → condition w = .PL)
    ∧ (w.extractLsb' 28 4 = 6#4 → condition w = .VS) ∧ (w.extractLsb' 28 4 = 7#4 → condition w = .VC)
    ∧ (w.extractLsb' 28 4 = 8#4 → condition w = .HI) ∧ (w.extractLsb' 28 4 = 9#4 → condition w = .LS)
    ∧ (w.extractLsb' 28 4 = 10#4 → condition w = .GE)
    ∧ (w.extractLsb' 28 4 = 11#4 → condition w = .LT)
    ∧ (w.extractLsb' 28 4 = 12#4 → condition w = .GT)
    ∧ (w.extractLsb' 28 4 = 13#4 → condition w = .LE)
    ∧ (w.extractLsb' 28 4 = 14#4 → condition w = .AL)
    ∧ (w.extractLsb' 28 4 = 15#4 → condition w = .NV))
  ∧ (∀ w v : Word, condition w = condition v ↔ w.extractLsb' 28 4 = v.extractLsb' 28 4)
  ∧ condition 0xE3A00301 = .AL ∧ condition 0x1A000000 = .NE

/-! ## Format Classifier -/

/-- `41_format_classifier.md` R70: sixteen rows in the source's order, the first that holds decides. -/
def Obligations.ClassifyTakesFirstMatchingRow : Prop :=
  predicateTable.map Prod.snd =
    [.multiply, .multiplyLong, .branchAndExchange, .singleDataSwap, .halfwordDataTransferReg,
     .halfwordDataTransferImm, .signedDataTransfer, .dataProcessingPsr, .loadStore, .undefined,
     .blockDataTransfer, .branch, .coprocDataTransfer, .coprocDataOp, .coprocRegTransfer,
     .softwareInterrupt]
  ∧ ∀ w : Word,
    (∀ f, classify w = .ok f ↔
      ∃ (k : Nat) (P : Word → Bool), predicateTable[k]? = some (P, f) ∧ P w = true
        ∧ ∀ (j : Nat) (Q : Word → Bool) (g : InstructionFormat), j < k →
          predicateTable[j]? = some (Q, g) → Q w = false)
    ∧ (classify w = .err (.unclassifiedInstruction w) ↔
        ∀ (k : Nat) (P : Word → Bool) (f : InstructionFormat),
          predicateTable[k]? = some (P, f) → P w = false)

/-- `41_format_classifier.md` R73 to R80: the predicates of rows 1 to 8, with the rules' corner cases and
examples. -/
def Obligations.PredicatesOfRowsOneToEight : Prop :=
  (∀ w : Word,
    (isMultiply w = true ↔ w.extractLsb' 22 6 = 0#6 ∧ w.extractLsb' 4 4 = 0b1001#4)
    ∧ (isMultiplyLong w = true ↔ w.extractLsb' 23 5 = 1#5 ∧ w.extractLsb' 4 4 = 0b1001#4)
    ∧ (isBranchAndExchange w = true ↔ w.extractLsb' 4 24 = 0x12FFF1#24)
    ∧ (isSingleDataSwap w = true ↔
        w.extractLsb' 23 5 = 0b00010#5 ∧ w.extractLsb' 20 2 = 0#2 ∧ w.extractLsb' 4 8 = 0b00001001#8)
    ∧ (isHalfwordDataTransferReg w = true ↔
        w.extractLsb' 25 3 = 0#3 ∧ w.getLsbD 22 = false ∧ w.extractLsb' 4 8 = 0b00001011#8)
    ∧ (isHalfwordDataTransferImm w = true ↔
        w.extractLsb' 25 3 = 0#3 ∧ w.getLsbD 22 = true ∧ w.extractLsb' 4 4 = 0b1011#4)
    ∧ (isSignedDataTransfer w = true ↔
        w.extractLsb' 25 3 = 0#3 ∧ w.extractLsb' 6 2 = 0b11#2 ∧ w.getLsbD 4 = true)
    ∧ (isDataProcessingPsr w = true ↔ w.extractLsb' 26 2 = 0#2)
    ∧ (w.extractLsb' 23 5 = 0#5 → w.getLsbD 22 = true → w.extractLsb' 4 4 = 0b1001#4 →
        classify w = .ok .dataProcessingPsr)
    ∧ (w.extractLsb' 26 2 = 0#2 → w.getLsbD 25 = true → classify w = .ok .dataProcessingPsr)
    ∧ (w.extractLsb' 26 2 = 0#2 → (∀ r ∈ predicateTable.take 7, r.1 w = false) →
        classify w = .ok .dataProcessingPsr)
    ∧ (classify w = .ok .dataProcessingPsr → w.getLsbD 25 = false →
        ¬ (w.extractLsb' 6 2 = 0b11#2 ∧ w.getLsbD 4 = true)))
  ∧ classify 0xE0400091 = .ok .dataProcessingPsr ∧ classify 0xE0020493 = .ok .multiply
  ∧ classify 0xE08413B2 = .ok .dataProcessingPsr ∧ classify 0xE1841392 = .ok .dataProcessingPsr
  ∧ classify 0xE0841392 = .ok .multiplyLong
  ∧ classify 0xE12FFF3E = .ok .dataProcessingPsr ∧ classify 0xE12FFF1E = .ok .branchAndExchange
  ∧ classify 0xE1112093 = .ok .dataProcessingPsr ∧ classify 0xE1212093 = .ok .dataProcessingPsr
  ∧ classify 0xE1012193 = .ok .dataProcessingPsr ∧ classify 0xE1812093 = .ok .dataProcessingPsr
  ∧ classify 0xE1012093 = .ok .singleDataSwap
  ∧ classify 0xE19101B2 = .ok .dataProcessingPsr
  ∧ classify 0xE19100B2 = .ok .halfwordDataTransferReg
  ∧ classify 0xE1D100B2 = .ok .halfwordDataTransferImm
  ∧ classify 0xE19100D2 = .ok .signedDataTransfer ∧ classify 0xE19100F2 = .ok .signedDataTransfer
  ∧ classify 0x00000000 = .ok .dataProcessingPsr ∧ classify 0xE3A00301 = .ok .dataProcessingPsr

/-- `41_format_classifier.md` R81 to R88: the predicates of rows 9 to 16, with the rules' corner cases and
examples; that row 10 (R82) never decides is a statement of its own. -/
def Obligations.PredicatesOfRowsNineToSixteen : Prop :=
  (∀ w : Word,
    (isLoadStore w = true ↔ w.extractLsb' 26 2 = 0b01#2)
    ∧ (isUndefined w = true ↔ w.extractLsb' 25 3 = 0b011#3 ∧ w.getLsbD 4 = true)
    ∧ (isBlockDataTransfer w = true ↔ w.extractLsb' 25 3 = 0b100#3 ∧ w.getLsbD 22 = false)
    ∧ (isBranch w = true ↔ w.extractLsb' 25 3 = 0b101#3)
    ∧ (isCoprocDataTransfer w = true ↔ w.extractLsb' 25 3 = 0b110#3)
    ∧ (isCoprocDataOp w = true ↔ w.extractLsb' 24 4 = 0b1110#4 ∧ w.getLsbD 4 = false)
    ∧ (isCoprocRegTransfer w = true ↔ w.extractLsb' 24 4 = 0b1110#4 ∧ w.getLsbD 4 = true)
    ∧ (isSoftwareInterrupt w = true ↔ w.extractLsb' 24 4 = 0b1111#4)
    ∧ (w.extractLsb' 26 2 = 0b01#2 → classify w = .ok .loadStore)
    ∧ (w.extractLsb' 25 3 = 0b100#3 → w.getLsbD 22 = true →
        classify w = .err (.unclassifiedInstruction w))
    ∧ (w.extractLsb' 25 3 = 0b101#3 → classify w = .ok .branch))
  ∧ classify 0xE7F000F0 = .ok .loadStore ∧ classify 0xE59FD0B8 = .ok .loadStore
  ∧ isUndefined 0xE7F000F0 = true
  ∧ classify 0xE8BD8010 = .ok .blockDataTransfer ∧ classify 0xE92D4010 = .ok .blockDataTransfer
  ∧ classify 0xE8FD8010 = .err (.unclassifiedInstruction 0xE8FD8010)
  ∧ classify 0xEA00002E = .ok .branch ∧ classify 0xEBFFFFFE = .ok .branch
  ∧ classify 0xED900A00 = .ok .coprocDataTransfer ∧ classify 0xEE000000 = .ok .coprocDataOp
  ∧ classify 0xEE110F10 = .ok .coprocRegTransfer ∧ classify 0xEF000011 = .ok .softwareInterrupt

/-- `30_encoding.md` R42: each field predicate is `(word & mask) == match`. -/
def Obligations.PredicatesAreMaskAndMatch : Prop :=
  ∀ w : Word,
    (isMultiply w = true ↔ w &&& 0x0FC000F0#32 = 0x00000090#32)
    ∧ (isMultiplyLong w = true ↔ w &&& 0x0F8000F0#32 = 0x00800090#32)
    ∧ (isBranchAndExchange w = true ↔ w &&& 0x0FFFFFF0#32 = 0x012FFF10#32)
    ∧ (isSingleDataSwap w = true ↔ w &&& 0x0FB00FF0#32 = 0x01000090#32)
    ∧ (isHalfwordDataTransferReg w = true ↔ w &&& 0x0E400FF0#32 = 0x000000B0#32)
    ∧ (isHalfwordDataTransferImm w = true ↔ w &&& 0x0E4000F0#32 = 0x004000B0#32)
    ∧ (isSignedDataTransfer w = true ↔ w &&& 0x0E0000D0#32 = 0x000000D0#32)
    ∧ (isDataProcessingPsr w = true ↔ w &&& 0x0C000000#32 = 0x00000000#32)
    ∧ (isLoadStore w = true ↔ w &&& 0x0C000000#32 = 0x04000000#32)
    ∧ (isUndefined w = true ↔ w &&& 0x0E000010#32 = 0x06000010#32)
    ∧ (isBlockDataTransfer w = true ↔ w &&& 0x0E400000#32 = 0x08000000#32)
    ∧ (isBranch w = true ↔ w &&& 0x0E000000#32 = 0x0A000000#32)
    ∧ (isCoprocDataTransfer w = true ↔ w &&& 0x0E000000#32 = 0x0C000000#32)
    ∧ (isCoprocDataOp w = true ↔ w &&& 0x0F000010#32 = 0x0E000000#32)
    ∧ (isCoprocRegTransfer w = true ↔ w &&& 0x0F000010#32 = 0x0E000010#32)
    ∧ (isSoftwareInterrupt w = true ↔ w &&& 0x0F000000#32 = 0x0F000000#32)
    ∧ (classify w = .err (.unclassifiedInstruction w) ↔ w &&& 0x0E400000#32 = 0x08400000#32)

/-- `41_format_classifier.md` R72: the complete list of overlaps between two rows (rows counted from 0
here): rows 1 to 7 each imply row 8, row 10 implies row 9, and no other two rows hold for one word. -/
def Obligations.RowsOverlapOnlyAsListed : Prop :=
  ∀ (w : Word) (j k : Nat) (P Q : Word → Bool) (f g : InstructionFormat),
    predicateTable[j]? = some (P, f) → predicateTable[k]? = some (Q, g) →
      (j < 7 → k = 7 → P w = true → Q w = true)
      ∧ (j = 9 → k = 8 → P w = true → Q w = true)
      ∧ (j < k → P w = true → Q w = true → (j < 7 ∧ k = 7) ∨ (j = 8 ∧ k = 9))

/-- `41_format_classifier.md` R89, as spelled out below its table: the exact set of words classified
`DataProcessingPsr`. -/
def Obligations.DataProcessingRegionIsExact : Prop :=
  ∀ w : Word, classify w = .ok .dataProcessingPsr ↔
    w.extractLsb' 26 2 = 0#2 ∧
      (w.getLsbD 25 = true
      ∨ (w.getLsbD 25 = false ∧ w.extractLsb' 4 4 ≠ 0b0001#4 ∧ w.extractLsb' 4 4 ≠ 0b1001#4
          ∧ w.extractLsb' 4 4 ≠ 0b1011#4 ∧ w.extractLsb' 4 4 ≠ 0b1101#4
          ∧ w.extractLsb' 4 4 ≠ 0b1111#4)
      ∨ (w.extractLsb' 4 4 = 0b0001#4 ∧ w.extractLsb' 8 20 ≠ 0x12FFF#20)
      ∨ (w.extractLsb' 4 4 = 0b1001#4 ∧ w.extractLsb' 22 6 ≠ 0#6 ∧ w.extractLsb' 23 5 ≠ 1#5
          ∧ ¬ (w.extractLsb' 23 5 = 2#5 ∧ w.extractLsb' 20 2 = 0#2 ∧ w.extractLsb' 8 4 = 0#4))
      ∨ (w.extractLsb' 4 4 = 0b1011#4 ∧ w.getLsbD 22 = false ∧ w.extractLsb' 8 4 ≠ 0#4))

/-- `41_format_classifier.md` R89: for every row except 8, 9 and 10 the words classified as its format are
exactly those that meet its predicate, and `LoadStore` takes every word with bits 27:26 = 01. -/
def Obligations.OtherRegionsAreThePredicates : Prop :=
  ∀ w : Word,
    (classify w = .ok .multiply ↔ isMultiply w = true)
    ∧ (classify w = .ok .multiplyLong ↔ isMultiplyLong w = true)
    ∧ (classify w = .ok .branchAndExchange ↔ isBranchAndExchange w = true)
    ∧ (classify w = .ok .singleDataSwap ↔ isSingleDataSwap w = true)
    ∧ (classify w = .ok .halfwordDataTransferReg ↔ isHalfwordDataTransferReg w = true)
    ∧ (classify w = .ok .halfwordDataTransferImm ↔ isHalfwordDataTransferImm w = true)
    ∧ (classify w = .ok .signedDataTransfer ↔ isSignedDataTransfer w = true)
    ∧ (classify w = .ok .loadStore ↔ w.extractLsb' 26 2 = 0b01#2)
    ∧ (classify w = .ok .blockDataTransfer ↔ isBlockDataTransfer w = true)
    ∧ (classify w = .ok .branch ↔ isBranch w = true)
    ∧ (classify w = .ok .coprocDataTransfer ↔ isCoprocDataTransfer w = true)
    ∧ (classify w = .ok .coprocDataOp ↔ isCoprocDataOp w = true)
    ∧ (classify w = .ok .coprocRegTransfer ↔ isCoprocRegTransfer w = true)
    ∧ (classify w = .ok .softwareInterrupt ↔ isSoftwareInterrupt w = true)

/-- `41_format_classifier.md` R82, R90: `Undefined` is shadowed by row 9 and never produced, neither as a
classification nor in an error. -/
def Obligations.UndefinedIsNeverProduced : Prop :=
  ∀ w : Word,
    (isUndefined w = true → classify w = .ok .loadStore)
    ∧ classify w ≠ .ok .undefined
    ∧ (∀ e, decodeDataProcessing w ≠ .err (.formatMismatch e .undefined))
    ∧ (∀ e, decodeLoadStore w ≠ .err (.formatMismatch e .undefined))
    ∧ (∀ e, decodeBranch w ≠ .err (.formatMismatch e .undefined))
    ∧ (∀ e, decodeBranchExchange w ≠ .err (.formatMismatch e .undefined))
    ∧ (∀ e, decodeMultiplyLong w ≠ .err (.formatMismatch e .undefined))

/-- `41_format_classifier.md` R94: the ordered list and the order-free tree are one function. -/
def Obligations.ClassifyEqualsDecisionTree : Prop :=
  ∀ w : Word, classify w = classifyTree w

/-- `41_format_classifier.md` R71, R91: two words that agree on bits 27:4 classify alike. -/
def Obligations.ClassifyReadsOnlyBits27To4 : Prop :=
  ∀ w v : Word, w.extractLsb' 4 24 = v.extractLsb' 4 24 →
    (∀ f, classify w = .ok f → classify v = .ok f)
    ∧ (classify w = .err (.unclassifiedInstruction w) →
        classify v = .err (.unclassifiedInstruction v))

/-- The machine's instruction decoder (mask and match, `30_encoding.md` R42, R58) and the block's Format
Classifier (field predicates, `41_format_classifier.md` R70) name the same format for every word. -/
def Obligations.DecodedRowIsTheClassification : Prop :=
  ∀ w : Word, classify w =
    match (decodeWord w).rowFormat with
    | some f => .ok f
    | none => .err (.unclassifiedInstruction w)

/-! ## Instruction Facade -/

/-- `43_instruction_facade.md` R124 to R127. -/
def Obligations.FacadeReadsItsBitRanges : Prop :=
  (∀ w : Word,
    rn w = w.extractLsb' 16 4 ∧ rd w = w.extractLsb' 12 4
    ∧ shiftRegisterForm w = (w.extractLsb' 4 8, w.extractLsb' 0 4)
    ∧ rotateImmediateForm w = (w.extractLsb' 8 4, w.extractLsb' 0 8))
  ∧ rn 0xE3A00301 = 0 ∧ rn 0xE59FD0B8 = 15 ∧ rd 0xE3A00301 = 0 ∧ rd 0xE59FD0B8 = 13
  ∧ shiftRegisterForm 0xE3A00301 = (0x30, 1) ∧ shiftRegisterForm 0xE1A01102 = (0x10, 2)
  ∧ rotateImmediateForm 0xE3A00301 = (3, 1)

/-- `43_instruction_facade.md` R122, R123, R128: the one-bit accessors, whose positions the spec derives,
and the relations of the raw operand2 field. -/
def Obligations.FacadeViewsOfOperand2Agree : Prop :=
  ∀ w : Word,
    op2ImmediateBit w = w.getLsbD 25 ∧ setFlagsBit w = w.getLsbD 20
    ∧ operand2Raw w = w.extractLsb' 0 12
    ∧ (operand2Raw w).toNat
        = (shiftRegisterForm w).1.toNat * 16 + (shiftRegisterForm w).2.toNat
    ∧ (operand2Raw w).toNat
        = (rotateImmediateForm w).1.toNat * 256 + (rotateImmediateForm w).2.toNat
    ∧ (∀ r, w.getLsbD 25 = false → decodeLoadStore w = .ok r →
        r.offset = .immOffset (operand2Raw w))

/-- `43_instruction_facade.md` R121, R129: `coarse_raw` is exact whatever the map, the class is the map's
value at it, and under the spec's default map each class goes with the formats the table lists. -/
def Obligations.CoarseClassAgainstFormat : Prop :=
  (∀ (map : CoarseMap) (w : Word), coarseRaw w = w.extractLsb' 26 2
      ∧ coarseClass map w = map (w.extractLsb' 26 2))
  ∧ (∀ (w : Word) (f : InstructionFormat), classify w = .ok f →
      (coarseClass Config.defaultCoarseMap w = some .dataProcessing ↔
        f = .multiply ∨ f = .multiplyLong ∨ f = .branchAndExchange ∨ f = .singleDataSwap
        ∨ f = .halfwordDataTransferReg ∨ f = .halfwordDataTransferImm ∨ f = .signedDataTransfer
        ∨ f = .dataProcessingPsr)
      ∧ (coarseClass Config.defaultCoarseMap w = some .memoryProcessing ↔ f = .loadStore)
      ∧ (coarseClass Config.defaultCoarseMap w = some .branch ↔
          f = .blockDataTransfer ∨ f = .branch)
      ∧ (coarseClass Config.defaultCoarseMap w = none ↔
          f = .coprocDataTransfer ∨ f = .coprocDataOp ∨ f = .coprocRegTransfer
          ∨ f = .softwareInterrupt))
  ∧ (∀ w : Word, classify w = .err (.unclassifiedInstruction w) →
      coarseClass Config.defaultCoarseMap w = some .branch)

/-- `43_instruction_facade.md` R130: its list, and the other fields of a record that a facade accessor reads
too: the discriminant in bit 25, the immediate offset in bits 11:0 and the multiplier in bits 11:8. -/
def Obligations.FacadeAgreesWithDecoders : Prop :=
  ∀ w : Word,
    (∀ r, decodeDataProcessing w = .ok r →
      r.rn = rn w ∧ r.rd = rd w ∧ r.setFlags = setFlagsBit w
      ∧ (op2ImmediateBit w = true ↔ ∃ rot v, r.operand2 = .immediateRotate rot v)
      ∧ (∀ rot v, r.operand2 = .immediateRotate rot v → (rot, v) = rotateImmediateForm w))
    ∧ (∀ r, decodeLoadStore w = .ok r →
      r.rn = rn w ∧ r.rd = rd w ∧ (r.opcode = .LDR ↔ setFlagsBit w = true)
      ∧ (op2ImmediateBit w = true ↔ ∃ k ty reg, r.offset = .shiftOffset k ty reg)
      ∧ (∀ v, r.offset = .immOffset v → v = operand2Raw w)
      ∧ (∀ k ty reg, r.offset = .shiftOffset k ty reg → reg = (shiftRegisterForm w).2))
    ∧ (∀ r, decodeMultiplyLong w = .ok r →
      r.rdHi = rn w ∧ r.rdLo = rd w ∧ r.setFlags = setFlagsBit w
      ∧ r.multiplier = (rotateImmediateForm w).1 ∧ r.multiplicand = (shiftRegisterForm w).2)
    ∧ (∀ r, decodeBranchExchange w = .ok r → r.target = (shiftRegisterForm w).2)

/-! ## Errors -/

/-- `60_exceptions.md` R201: `UnclassifiedInstruction` is returned on the hole and nowhere else, by
`classify` and by each decoder, and its payload is the word. -/
def Obligations.HoleAloneIsUnclassified : Prop :=
  (∀ w : Word,
    (w.extractLsb' 25 3 = 0b100#3 ∧ w.getLsbD 22 = true →
      classify w = .err (.unclassifiedInstruction w)
      ∧ decodeDataProcessing w = .err (.unclassifiedInstruction w)
      ∧ decodeLoadStore w = .err (.unclassifiedInstruction w)
      ∧ decodeBranch w = .err (.unclassifiedInstruction w)
      ∧ decodeBranchExchange w = .err (.unclassifiedInstruction w)
      ∧ decodeMultiplyLong w = .err (.unclassifiedInstruction w))
    ∧ (¬ (w.extractLsb' 25 3 = 0b100#3 ∧ w.getLsbD 22 = true) → ∀ v,
      classify w ≠ .err (.unclassifiedInstruction v)
      ∧ decodeDataProcessing w ≠ .err (.unclassifiedInstruction v)
      ∧ decodeLoadStore w ≠ .err (.unclassifiedInstruction v)
      ∧ decodeBranch w ≠ .err (.unclassifiedInstruction v)
      ∧ decodeBranchExchange w ≠ .err (.unclassifiedInstruction v)
      ∧ decodeMultiplyLong w ≠ .err (.unclassifiedInstruction v)))
  ∧ classify 0xE8FD8010 = .err (.unclassifiedInstruction 0xE8FD8010)

/-- `60_exceptions.md` R202, R203: a decoder returns `FormatMismatch` exactly when the word classifies as
another format, with its own format as `expected` and that format, never `Undefined`, as `actual`; it
returns `UnclassifiedInstruction` exactly when `classify` does; `classify` never mismatches. -/
def Obligations.MismatchNamesExpectedAndActual : Prop :=
  (∀ (w : Word) (e a : InstructionFormat),
    classify w ≠ .err (.formatMismatch e a)
    ∧ (decodeDataProcessing w = .err (.formatMismatch e a) ↔
        e = .dataProcessingPsr ∧ classify w = .ok a ∧ a ≠ .dataProcessingPsr ∧ a ≠ .undefined)
    ∧ (decodeLoadStore w = .err (.formatMismatch e a) ↔
        e = .loadStore ∧ classify w = .ok a ∧ a ≠ .loadStore ∧ a ≠ .undefined)
    ∧ (decodeBranch w = .err (.formatMismatch e a) ↔
        e = .branch ∧ classify w = .ok a ∧ a ≠ .branch ∧ a ≠ .undefined)
    ∧ (decodeBranchExchange w = .err (.formatMismatch e a) ↔
        e = .branchAndExchange ∧ classify w = .ok a ∧ a ≠ .branchAndExchange ∧ a ≠ .undefined)
    ∧ (decodeMultiplyLong w = .err (.formatMismatch e a) ↔
        e = .multiplyLong ∧ classify w = .ok a ∧ a ≠ .multiplyLong ∧ a ≠ .undefined))
  ∧ (∀ w v : Word,
    (decodeDataProcessing w = .err (.unclassifiedInstruction v) ↔
        classify w = .err (.unclassifiedInstruction v))
    ∧ (decodeLoadStore w = .err (.unclassifiedInstruction v) ↔
        classify w = .err (.unclassifiedInstruction v))
    ∧ (decodeBranch w = .err (.unclassifiedInstruction v) ↔
        classify w = .err (.unclassifiedInstruction v))
    ∧ (decodeBranchExchange w = .err (.unclassifiedInstruction v) ↔
        classify w = .err (.unclassifiedInstruction v))
    ∧ (decodeMultiplyLong w = .err (.unclassifiedInstruction v) ↔
        classify w = .err (.unclassifiedInstruction v)))
  ∧ decodeDataProcessing 0xEA00002E = .err (.formatMismatch .dataProcessingPsr .branch)

/-- `44_data_processing_decoder.md` R163, `45_load_store_decoder.md` R177, `46_branch_decoders.md` R184,
`47_multiply_long_decoder.md` R197: the errors of four decoders, with the rules' examples. -/
def Obligations.DecodersReportTheirErrors : Prop :=
  (∀ (w : Word) (f : InstructionFormat), classify w = .ok f →
    (f ≠ .dataProcessingPsr →
      decodeDataProcessing w = .err (.formatMismatch .dataProcessingPsr f))
    ∧ (f ≠ .loadStore → decodeLoadStore w = .err (.formatMismatch .loadStore f))
    ∧ (f ≠ .branch → decodeBranch w = .err (.formatMismatch .branch f))
    ∧ (f ≠ .multiplyLong → decodeMultiplyLong w = .err (.formatMismatch .multiplyLong f)))
  ∧ (∀ w : Word, w.extractLsb' 25 3 = 0b100#3 → w.getLsbD 22 = true →
    decodeDataProcessing w = .err (.unclassifiedInstruction w)
    ∧ decodeLoadStore w = .err (.unclassifiedInstruction w)
    ∧ decodeBranch w = .err (.unclassifiedInstruction w)
    ∧ decodeMultiplyLong w = .err (.unclassifiedInstruction w))
  ∧ decodeDataProcessing 0xEA00002E = .err (.formatMismatch .dataProcessingPsr .branch)
  ∧ decodeDataProcessing 0xE0020493 = .err (.formatMismatch .dataProcessingPsr .multiply)
  ∧ decodeDataProcessing 0xE1A00FF1
      = .err (.formatMismatch .dataProcessingPsr .signedDataTransfer)
  ∧ decodeDataProcessing 0xE8FD8010 = .err (.unclassifiedInstruction 0xE8FD8010)
  ∧ decodeLoadStore 0xEA00002E = .err (.formatMismatch .loadStore .branch)
  ∧ decodeLoadStore 0xE19100B2 = .err (.formatMismatch .loadStore .halfwordDataTransferReg)
  ∧ decodeLoadStore 0xE3A00301 = .err (.formatMismatch .loadStore .dataProcessingPsr)
  ∧ decodeLoadStore 0xE8FD8010 = .err (.unclassifiedInstruction 0xE8FD8010)
  ∧ decodeBranch 0xE3A00301 = .err (.formatMismatch .branch .dataProcessingPsr)
  ∧ decodeBranch 0xE12FFF1E = .err (.formatMismatch .branch .branchAndExchange)
  ∧ decodeBranch 0xE92D4010 = .err (.formatMismatch .branch .blockDataTransfer)
  ∧ decodeBranch 0xE8FD8010 = .err (.unclassifiedInstruction 0xE8FD8010)
  ∧ (∀ w : Word, classify w = .ok .branch ∨ classify w = .ok .blockDataTransfer
      ∨ (w.extractLsb' 25 3 = 0b100#3 ∧ w.getLsbD 22 = true) →
        w.extractLsb' 26 2 = 0b10#2 ∧ coarseRaw w = 0b10)
  ∧ decodeMultiplyLong 0xE0020493 = .err (.formatMismatch .multiplyLong .multiply)
  ∧ decodeMultiplyLong 0xE1841392 = .err (.formatMismatch .multiplyLong .dataProcessingPsr)
  ∧ decodeMultiplyLong 0xE08413B2 = .err (.formatMismatch .multiplyLong .dataProcessingPsr)
  ∧ decodeMultiplyLong 0xE8FD8010 = .err (.unclassifiedInstruction 0xE8FD8010)

/-- `60_exceptions.md` R204: on which words each decoder succeeds, and that at most one does. -/
def Obligations.DecodersSucceedOnDisjointRegions : Prop :=
  ∀ w : Word,
    ((∃ r, decodeDataProcessing w = .ok r) ↔
        w.extractLsb' 26 2 = 0#2 ∧
          (w.getLsbD 25 = true
          ∨ (w.getLsbD 25 = false ∧ w.extractLsb' 4 4 ≠ 0b0001#4 ∧ w.extractLsb' 4 4 ≠ 0b1001#4
              ∧ w.extractLsb' 4 4 ≠ 0b1011#4 ∧ w.extractLsb' 4 4 ≠ 0b1101#4
              ∧ w.extractLsb' 4 4 ≠ 0b1111#4)
          ∨ (w.extractLsb' 4 4 = 0b0001#4 ∧ w.extractLsb' 8 20 ≠ 0x12FFF#20)
          ∨ (w.extractLsb' 4 4 = 0b1001#4 ∧ w.extractLsb' 22 6 ≠ 0#6 ∧ w.extractLsb' 23 5 ≠ 1#5
              ∧ ¬ (w.extractLsb' 23 5 = 2#5 ∧ w.extractLsb' 20 2 = 0#2 ∧ w.extractLsb' 8 4 = 0#4))
          ∨ (w.extractLsb' 4 4 = 0b1011#4 ∧ w.getLsbD 22 = false ∧ w.extractLsb' 8 4 ≠ 0#4)))
    ∧ ((∃ r, decodeLoadStore w = .ok r) ↔ w.extractLsb' 26 2 = 0b01#2)
    ∧ ((∃ r, decodeBranch w = .ok r) ↔ w.extractLsb' 25 3 = 0b101#3)
    ∧ ((∃ r, decodeBranchExchange w = .ok r) ↔ w.extractLsb' 4 24 = 0x12FFF1#24)
    ∧ ((∃ r, decodeMultiplyLong w = .ok r) ↔
        w.extractLsb' 23 5 = 1#5 ∧ w.extractLsb' 4 4 = 0b1001#4)
    ∧ (∀ f, classify w = .ok f →
        ((∃ r, decodeDataProcessing w = .ok r) → f = .dataProcessingPsr)
        ∧ ((∃ r, decodeLoadStore w = .ok r) → f = .loadStore)
        ∧ ((∃ r, decodeBranch w = .ok r) → f = .branch)
        ∧ ((∃ r, decodeBranchExchange w = .ok r) → f = .branchAndExchange)
        ∧ ((∃ r, decodeMultiplyLong w = .ok r) → f = .multiplyLong))

/-! ## The five decoders -/

/-- `44_data_processing_decoder.md` R141, and the operand2 ranges of R142 on the raw shift type; its label is
the spec's decision D7 (log entry 6) and is not stated here. -/
def Obligations.DataProcessingFieldsAreRawRanges : Prop :=
  (∀ w : Word, classify w = .ok .dataProcessingPsr →
    ∃ r, decodeDataProcessing w = .ok r ∧ r.condition = condition w
      ∧ r.opcode = dpOpcodeName (w.extractLsb' 21 4)
      ∧ r.rn = w.extractLsb' 16 4 ∧ r.rd = w.extractLsb' 12 4 ∧ r.setFlags = w.getLsbD 20
      ∧ (w.getLsbD 25 = true →
          r.operand2 = .immediateRotate (w.extractLsb' 8 4) (w.extractLsb' 0 8))
      ∧ (w.getLsbD 25 = false → w.getLsbD 4 = false → ∃ ty, ty.raw = w.extractLsb' 5 2
          ∧ r.operand2 = .shiftRegisterDirect (w.extractLsb' 7 5) ty)
      ∧ (w.getLsbD 25 = false → w.getLsbD 4 = true → ∃ ty, ty.raw = w.extractLsb' 5 2
          ∧ r.operand2 = .shiftRegisterIndirect (w.extractLsb' 7 5) ty))
  ∧ decodeDataProcessing 0xE3A00301 = .ok ⟨.AL, .MOV, 0, 0, .immediateRotate 3 1, false⟩
  ∧ decodeDataProcessing 0xE3F01FFF = .ok ⟨.AL, .MVN, 1, 0, .immediateRotate 15 255, true⟩
  ∧ (∃ ty, ty.raw = 0 ∧ decodeDataProcessing 0xE1A01102
      = .ok ⟨.AL, .MOV, 1, 0, .shiftRegisterDirect 2 ty, false⟩)
  ∧ (∃ ty, ty.raw = 3 ∧ decodeDataProcessing 0xE1B00FE1
      = .ok ⟨.AL, .MOV, 0, 0, .shiftRegisterDirect 31 ty, true⟩)
  ∧ (∃ ty, ty.raw = 0 ∧ decodeDataProcessing 0xE1A01312
      = .ok ⟨.AL, .MOV, 1, 0, .shiftRegisterIndirect 6 ty, false⟩)
  ∧ (∃ r, decodeDataProcessing 0xE0912003 = .ok r ∧ r.opcode = .ADD ∧ r.setFlags = true
      ∧ r.rn = 1 ∧ r.rd = 2)

/-- `44_data_processing_decoder.md` R144 to R151. -/
def Obligations.OpcodeNamesZeroToSeven : Prop :=
  (∀ (w : Word) (r : DataProcessingInstruction), decodeDataProcessing w = .ok r →
    (w.extractLsb' 21 4 = 0#4 → r.opcode = .AND) ∧ (w.extractLsb' 21 4 = 1#4 → r.opcode = .EOR)
    ∧ (w.extractLsb' 21 4 = 2#4 → r.opcode = .SUB) ∧ (w.extractLsb' 21 4 = 3#4 → r.opcode = .RSB)
    ∧ (w.extractLsb' 21 4 = 4#4 → r.opcode = .ADD) ∧ (w.extractLsb' 21 4 = 5#4 → r.opcode = .ADC)
    ∧ (w.extractLsb' 21 4 = 6#4 → r.opcode = .SBC) ∧ (w.extractLsb' 21 4 = 7#4 → r.opcode = .RSC))
  ∧ decodeDataProcessing 0xE20120F0 = .ok ⟨.AL, .AND, 2, 1, .immediateRotate 0 240, false⟩
  ∧ decodeDataProcessing 0xE23231F1 = .ok ⟨.AL, .EOR, 3, 2, .immediateRotate 1 241, true⟩
  ∧ decodeDataProcessing 0xE24342F2 = .ok ⟨.AL, .SUB, 4, 3, .immediateRotate 2 242, false⟩
  ∧ decodeDataProcessing 0xE27453F3 = .ok ⟨.AL, .RSB, 5, 4, .immediateRotate 3 243, true⟩
  ∧ decodeDataProcessing 0xE28564F4 = .ok ⟨.AL, .ADD, 6, 5, .immediateRotate 4 244, false⟩
  ∧ decodeDataProcessing 0xE2B675F5 = .ok ⟨.AL, .ADC, 7, 6, .immediateRotate 5 245, true⟩
  ∧ decodeDataProcessing 0xE2C786F6 = .ok ⟨.AL, .SBC, 8, 7, .immediateRotate 6 246, false⟩
  ∧ decodeDataProcessing 0xE2F897F7 = .ok ⟨.AL, .RSC, 9, 8, .immediateRotate 7 247, true⟩

/-- `44_data_processing_decoder.md` R152 to R159. -/
def Obligations.OpcodeNamesEightToFifteen : Prop :=
  (∀ (w : Word) (r : DataProcessingInstruction), decodeDataProcessing w = .ok r →
    (w.extractLsb' 21 4 = 8#4 → r.opcode = .TST) ∧ (w.extractLsb' 21 4 = 9#4 → r.opcode = .TEQ)
    ∧ (w.extractLsb' 21 4 = 10#4 → r.opcode = .CMP) ∧ (w.extractLsb' 21 4 = 11#4 → r.opcode = .CMN)
    ∧ (w.extractLsb' 21 4 = 12#4 → r.opcode = .ORR) ∧ (w.extractLsb' 21 4 = 13#4 → r.opcode = .MOV)
    ∧ (w.extractLsb' 21 4 = 14#4 → r.opcode = .BIC) ∧ (w.extractLsb' 21 4 = 15#4 → r.opcode = .MVN))
  ∧ decodeDataProcessing 0xE309A8F8 = .ok ⟨.AL, .TST, 10, 9, .immediateRotate 8 248, false⟩
  ∧ decodeDataProcessing 0xE33AB9F9 = .ok ⟨.AL, .TEQ, 11, 10, .immediateRotate 9 249, true⟩
  ∧ decodeDataProcessing 0xE34BCAFA = .ok ⟨.AL, .CMP, 12, 11, .immediateRotate 10 250, false⟩
  ∧ decodeDataProcessing 0xE37CDBFB = .ok ⟨.AL, .CMN, 13, 12, .immediateRotate 11 251, true⟩
  ∧ decodeDataProcessing 0xE38DECFC = .ok ⟨.AL, .ORR, 14, 13, .immediateRotate 12 252, false⟩
  ∧ decodeDataProcessing 0xE3BEFDFD = .ok ⟨.AL, .MOV, 15, 14, .immediateRotate 13 253, true⟩
  ∧ decodeDataProcessing 0xE3CF0EFE = .ok ⟨.AL, .BIC, 0, 15, .immediateRotate 14 254, false⟩
  ∧ decodeDataProcessing 0xE3F01FFF = .ok ⟨.AL, .MVN, 1, 0, .immediateRotate 15 255, true⟩

/-- `44_data_processing_decoder.md` R160; the label in the examples is the spec's decision D7 (log
entry 6). -/
def Obligations.ShiftedRegisterIsNotInTheRecord : Prop :=
  (∀ w v : Word, w.getLsbD 25 = false → AgreeOutside 0 4 w v →
    ∀ r, decodeDataProcessing w = .ok r → decodeDataProcessing v = .ok r)
  ∧ decodeDataProcessing 0xE1A01102
      = .ok ⟨.AL, .MOV, 1, 0, .shiftRegisterDirect 2 ⟨0, .logicalLeft⟩, false⟩
  ∧ decodeDataProcessing 0xE1A01103
      = .ok ⟨.AL, .MOV, 1, 0, .shiftRegisterDirect 2 ⟨0, .logicalLeft⟩, false⟩

/-- `44_data_processing_decoder.md` R161: the register field of the indirect shape is bits 11:7, every one
of its 32 values is reached, and with bit 7 set the raw shift type is 0 or 1. -/
def Obligations.IndirectShiftRegisterIsFiveBits : Prop :=
  (∀ (w : Word) (r : DataProcessingInstruction) (reg : BitVec 5) (ty : ShiftField),
    decodeDataProcessing w = .ok r → r.operand2 = .shiftRegisterIndirect reg ty →
      reg.toNat = 2 * (w.extractLsb' 8 4).toNat + (w.getLsbD 7).toNat
      ∧ (w.getLsbD 7 = true → ty.raw = 0#2 ∨ ty.raw = 1#2))
  ∧ (∀ reg : BitVec 5, ∃ w r ty, decodeDataProcessing w = .ok r
      ∧ r.operand2 = .shiftRegisterIndirect reg ty)

/-- `45_load_store_decoder.md` R171 to R173, and the offset ranges of R174 on the raw shift type; its label
is the spec's decision D7 (log entry 6) and is not stated here. -/
def Obligations.LoadStoreFieldsAreRawRanges : Prop :=
  (∀ w : Word, classify w = .ok .loadStore →
    ∃ r, decodeLoadStore w = .ok r ∧ r.condition = condition w
      ∧ (w.getLsbD 20 = true → r.opcode = .LDR) ∧ (w.getLsbD 20 = false → r.opcode = .STR)
      ∧ r.rd = w.extractLsb' 12 4 ∧ r.rn = w.extractLsb' 16 4
      ∧ r.writeback = w.getLsbD 21 ∧ r.byteWord = w.getLsbD 22
      ∧ r.upDown = w.getLsbD 23 ∧ r.prePost = w.getLsbD 24
      ∧ (w.getLsbD 25 = true → ∃ ty, ty.raw = w.extractLsb' 5 2
          ∧ r.offset = .shiftOffset (w.extractLsb' 7 5) ty (w.extractLsb' 0 4))
      ∧ (w.getLsbD 25 = false → r.offset = .immOffset (w.extractLsb' 0 12)))
  ∧ decodeLoadStore 0xE59FD0B8
      = .ok ⟨.AL, .LDR, 13, 15, false, false, true, true, .immOffset 0x0B8⟩
  ∧ decodeLoadStore 0xE5212008
      = .ok ⟨.AL, .STR, 2, 1, true, false, false, true, .immOffset 0x008⟩
  ∧ decodeLoadStore 0xE5D01004
      = .ok ⟨.AL, .LDR, 1, 0, false, true, true, true, .immOffset 0x004⟩
  ∧ decodeLoadStore 0xE5801000
      = .ok ⟨.AL, .STR, 1, 0, false, false, true, true, .immOffset 0x000⟩
  ∧ (∃ ty, ty.raw = 0 ∧ decodeLoadStore 0xE7910102
      = .ok ⟨.AL, .LDR, 0, 1, false, false, true, true, .shiftOffset 2 ty 2⟩)
  ∧ (∃ ty, ty.raw = 0 ∧ decodeLoadStore 0xE6812203
      = .ok ⟨.AL, .STR, 2, 1, false, false, true, false, .shiftOffset 4 ty 3⟩)
  ∧ decodeLoadStore 0xE5FFFFFF
      = .ok ⟨.AL, .LDR, 15, 15, true, true, true, true, .immOffset 0xFFF⟩

/-- `45_load_store_decoder.md` R175: bit 4 is not read in the shift form, and the words of row 10 are
accepted. -/
def Obligations.LoadStoreIgnoresBitFour : Prop :=
  (∀ w v : Word, w.getLsbD 25 = true → AgreeOutside 4 1 w v →
    ∀ r, decodeLoadStore w = .ok r → decodeLoadStore v = .ok r)
  ∧ (∀ w : Word, isUndefined w = true → ∃ r, decodeLoadStore w = .ok r)

/-- `46_branch_decoders.md` R180 to R183: link is bit 24 and the offset is raw: unsigned, unscaled. -/
def Obligations.BranchOffsetIsRaw : Prop :=
  (∀ w : Word, classify w = .ok .branch →
    ∃ r, decodeBranch w = .ok r ∧ r.condition = condition w
      ∧ (w.getLsbD 24 = false → r.link = false) ∧ (w.getLsbD 24 = true → r.link = true)
      ∧ r.offset = w.extractLsb' 0 24 ∧ r.offset.toNat = w.toNat % 2 ^ 24
      ∧ (w.getLsbD 23 = true → 0x800000 ≤ r.offset.toNat))
  ∧ (∀ f w, classify w = .ok f → f ≠ .branch → decodeBranch w = .err (.formatMismatch .branch f))
  ∧ (∀ w v, classify w = .err (.unclassifiedInstruction v) →
      decodeBranch w = .err (.unclassifiedInstruction v))
  ∧ (∀ w : Word, (∃ r, decodeBranch w = .ok r) ↔ w.extractLsb' 25 3 = 0b101#3)
  ∧ decodeBranch 0xEA00002E = .ok ⟨.AL, false, 0x00002E⟩
  ∧ decodeBranch 0x1A000005 = .ok ⟨.NE, false, 0x000005⟩
  ∧ decodeBranch 0xEBFFFFFE = .ok ⟨.AL, true, 0xFFFFFE⟩
  ∧ decodeBranch 0xEAFFFFFF = .ok ⟨.AL, false, 0xFFFFFF⟩
  ∧ decodeBranch 0xEA800000 = .ok ⟨.AL, false, 0x800000⟩
  ∧ decodeBranch 0xEA7FFFFF = .ok ⟨.AL, false, 0x7FFFFF⟩
  ∧ decodeBranch 0xEA000000 = .ok ⟨.AL, false, 0x000000⟩

/-- `46_branch_decoders.md` R185, R186. -/
def Obligations.BranchExchangeReportsTheIndex : Prop :=
  (∀ w : Word, classify w = .ok .branchAndExchange →
    decodeBranchExchange w = .ok ⟨condition w, w.extractLsb' 0 4⟩)
  ∧ (∀ f w, classify w = .ok f → f ≠ .branchAndExchange →
      decodeBranchExchange w = .err (.formatMismatch .branchAndExchange f))
  ∧ (∀ w v, classify w = .err (.unclassifiedInstruction v) →
      decodeBranchExchange w = .err (.unclassifiedInstruction v))
  ∧ (∀ w, (∃ r, decodeBranchExchange w = .ok r) ↔ w.extractLsb' 4 24 = 0x12FFF1#24)
  ∧ decodeBranchExchange 0xE12FFF1E = .ok ⟨.AL, 14⟩
  ∧ decodeBranchExchange 0xE12FFF10 = .ok ⟨.AL, 0⟩
  ∧ decodeBranchExchange 0xE12FFF1F = .ok ⟨.AL, 15⟩
  ∧ decodeBranchExchange 0x012FFF13 = .ok ⟨.EQ, 3⟩

/-- `46_branch_decoders.md` R187: every single-bit change of bits 27:4 of a branch-and-exchange word. -/
def Obligations.BranchExchangeBitFlips : Prop :=
  ∀ (w : Word) (i : Nat), isBranchAndExchange w = true → 4 ≤ i → i ≤ 27 →
    classify (w ^^^ (1#32 <<< i)) =
      .ok (if i = 27 then .blockDataTransfer else if i = 26 then .loadStore else .dataProcessingPsr)

/-- `47_multiply_long_decoder.md` R190 to R194: `unsigned` is the complement of bit 22. -/
def Obligations.MultiplyLongFieldsAreRawRanges : Prop :=
  (∀ w : Word, classify w = .ok .multiplyLong →
    ∃ r, decodeMultiplyLong w = .ok r ∧ r.condition = condition w
      ∧ r.isUnsigned = !w.getLsbD 22 ∧ r.accumulate = w.getLsbD 21 ∧ r.setFlags = w.getLsbD 20
      ∧ r.rdHi = w.extractLsb' 16 4 ∧ r.rdLo = w.extractLsb' 12 4
      ∧ r.multiplier = w.extractLsb' 8 4 ∧ r.multiplicand = w.extractLsb' 0 4)
  ∧ (∀ f w, classify w = .ok f → f ≠ .multiplyLong →
      decodeMultiplyLong w = .err (.formatMismatch .multiplyLong f))
  ∧ (∀ w v, classify w = .err (.unclassifiedInstruction v) →
      decodeMultiplyLong w = .err (.unclassifiedInstruction v))
  ∧ (∀ w : Word, (∃ r, decodeMultiplyLong w = .ok r) ↔
      w.extractLsb' 23 5 = 1#5 ∧ w.extractLsb' 4 4 = 0b1001#4)
  ∧ decodeMultiplyLong 0xE0841392 = .ok ⟨.AL, true, false, false, 4, 1, 3, 2⟩
  ∧ decodeMultiplyLong 0xE0FFFF9F = .ok ⟨.AL, false, true, true, 15, 15, 15, 15⟩
  ∧ decodeMultiplyLong 0xE0800090 = .ok ⟨.AL, true, false, false, 0, 0, 0, 0⟩
  ∧ decodeMultiplyLong 0x10C10293 = .ok ⟨.NE, false, false, false, 1, 0, 2, 3⟩
  ∧ decodeMultiplyLong 0xE0C41392 = .ok ⟨.AL, false, false, false, 4, 1, 3, 2⟩
  ∧ decodeMultiplyLong 0xE0A41392 = .ok ⟨.AL, true, true, false, 4, 1, 3, 2⟩
  ∧ decodeMultiplyLong 0xE0941392 = .ok ⟨.AL, true, false, true, 4, 1, 3, 2⟩

/-! ## Every instruction word completes -/

/-- `AND`, `EOR`, `SUB`, `RSB`, `ADD`, `ADC`, `SBC`, `RSC`, `TST`, `TEQ`, `CMP`, `CMN`, `ORR`, `MOV`, `BIC`,
`MVN` and the parent row `DataProcessingPsr`: in every state the word is delivered as one output with the
record of its fields, and each other decoder mismatches. -/
def Obligations.DataProcessingWordsComplete : Prop :=
  ∀ (op : DpOpcode) (c : ConditionCode) (f : Bool) (rn rd : BitVec 4) (op2 : Op2Form) (s : State),
    (Instr.ofDpOpcode op c f rn rd op2).wf = true →
    ∃ o : Outputs,
      exec (Instr.ofDpOpcode op c f rn rd op2) s = .next (s.append o)
      ∧ exec (.dataProcessingPsr c op f rn rd op2) s = .next (s.append o)
      ∧ o.classify = .ok .dataProcessingPsr ∧ o.condition = c
      ∧ o.dataProcessing = .ok ⟨c, op, rd, rn, operand2Of op2, f⟩
      ∧ o.MismatchesExcept .dataProcessingPsr

/-- `LDR`, `STR` and the parent row `LoadStore`. -/
def Obligations.LoadStoreWordsComplete : Prop :=
  ∀ (op : LsOpcode) (c : ConditionCode) (p u b w : Bool) (rn rd : BitVec 4) (off : OffsetForm)
    (s : State),
    ∃ o : Outputs,
      exec (Instr.ofLsOpcode op c p u b w rn rd off) s = .next (s.append o)
      ∧ exec (.loadStore c op p u b w rn rd off) s = .next (s.append o)
      ∧ o.classify = .ok .loadStore ∧ o.condition = c
      ∧ o.loadStore = .ok ⟨c, op, rd, rn, w, b, u, p, offsetRecordOf off⟩
      ∧ o.MismatchesExcept .loadStore

/-- The shadowed row `Undefined`: its words are delivered as `LoadStore` words, with the record of the
shift form (`41_format_classifier.md` R82, `45_load_store_decoder.md` R175). -/
def Obligations.UndefinedWordsCompleteAsLoadStore : Prop :=
  ∀ (c : ConditionCode) (x : BitVec 20) (lo : BitVec 4) (s : State),
    ∃ o : Outputs,
      exec (.undefined c x lo) s = .next (s.append o)
      ∧ o.classify = .ok .loadStore ∧ o.condition = c
      ∧ o.loadStore = .ok
          { condition := c
            opcode := if x.getLsbD 15 then .LDR else .STR
            rd := x.extractLsb' 7 4
            rn := x.extractLsb' 11 4
            writeback := x.getLsbD 16
            byteWord := x.getLsbD 17
            upDown := x.getLsbD 18
            prePost := x.getLsbD 19
            offset := .shiftOffset (x.extractLsb' 2 5)
              ⟨x.extractLsb' 0 2, shiftTypeName (x.extractLsb' 0 2)⟩ lo }
      ∧ o.MismatchesExcept .loadStore

/-- `Branch` with `link` false and true, and the parent row `Branch`: nothing is redirected, the next
position follows (`46_branch_decoders.md`, `10_state.md` R26). -/
def Obligations.BranchWordsComplete : Prop :=
  ∀ (l : Bool) (c : ConditionCode) (off : BitVec 24) (s : State),
    ∃ o : Outputs,
      exec (Instr.ofLink l c off) s = .next (s.append o)
      ∧ exec (.branch c l off) s = .next (s.append o)
      ∧ (s.append o).position = s.position + 1
      ∧ o.classify = .ok .branch ∧ o.condition = c
      ∧ o.branch = .ok ⟨c, l, off⟩
      ∧ o.MismatchesExcept .branch

/-- `BranchAndExchange`. -/
def Obligations.BranchExchangeWordsComplete : Prop :=
  ∀ (c : ConditionCode) (t : BitVec 4) (s : State),
    ∃ o : Outputs,
      exec (.branchAndExchange c t) s = .next (s.append o)
      ∧ o.classify = .ok .branchAndExchange ∧ o.condition = c
      ∧ o.branchExchange = .ok ⟨c, t⟩
      ∧ o.MismatchesExcept .branchAndExchange

/-- The four `MultiplyLong` sub-rows and the parent row `MultiplyLong`; `unsigned` is the complement of the
bit (`47_multiply_long_decoder.md` R192, R195). -/
def Obligations.MultiplyLongWordsComplete : Prop :=
  ∀ (b22 a f : Bool) (c : ConditionCode) (hi lo m n : BitVec 4) (s : State),
    ∃ o : Outputs,
      exec (Instr.ofMultiplyLongBits b22 a c f hi lo m n) s = .next (s.append o)
      ∧ exec (.multiplyLong c b22 a f hi lo m n) s = .next (s.append o)
      ∧ o.classify = .ok .multiplyLong ∧ o.condition = c
      ∧ o.multiplyLong = .ok ⟨c, !b22, a, f, hi, lo, m, n⟩
      ∧ o.MismatchesExcept .multiplyLong

/-- `Multiply`, `SingleDataSwap`, `HalfwordDataTransferReg`, `HalfwordDataTransferImm`,
`SignedDataTransfer`: delivered with their format, their condition and five mismatches
(`30_encoding.md` R49). -/
def Obligations.NarrowRowsWithoutDecoderComplete : Prop :=
  ∀ (c : ConditionCode) (lo : BitVec 4) (s : State),
    (∀ x : BitVec 14, ∃ o : Outputs, exec (.multiply c x lo) s = .next (s.append o)
      ∧ o.classify = .ok .multiply ∧ o.condition = c ∧ o.MismatchesExcept .multiply)
    ∧ (∀ (b : Bool) (x : BitVec 8), ∃ o : Outputs,
      exec (.singleDataSwap c b x lo) s = .next (s.append o)
      ∧ o.classify = .ok .singleDataSwap ∧ o.condition = c
      ∧ o.MismatchesExcept .singleDataSwap)
    ∧ (∀ (p : BitVec 2) (x : BitVec 10), ∃ o : Outputs,
      exec (.halfwordDataTransferReg c p x lo) s = .next (s.append o)
      ∧ o.classify = .ok .halfwordDataTransferReg ∧ o.condition = c
      ∧ o.MismatchesExcept .halfwordDataTransferReg)
    ∧ (∀ (p : BitVec 2) (x : BitVec 14), ∃ o : Outputs,
      exec (.halfwordDataTransferImm c p x lo) s = .next (s.append o)
      ∧ o.classify = .ok .halfwordDataTransferImm ∧ o.condition = c
      ∧ o.MismatchesExcept .halfwordDataTransferImm)
    ∧ (∀ (x : BitVec 17) (b : Bool), ∃ o : Outputs,
      exec (.signedDataTransfer c x b lo) s = .next (s.append o)
      ∧ o.classify = .ok .signedDataTransfer ∧ o.condition = c
      ∧ o.MismatchesExcept .signedDataTransfer)

/-- `BlockDataTransfer`, `CoprocDataTransfer`, `CoprocDataOp`, `CoprocRegTransfer`, `SoftwareInterrupt`:
delivered with their format, their condition and five mismatches; no interrupt is raised
(`30_encoding.md` R49, `60_exceptions.md` R207). -/
def Obligations.WideRowsWithoutDecoderComplete : Prop :=
  ∀ (c : ConditionCode) (s : State),
    (∀ (p : BitVec 2) (x : BitVec 22), ∃ o : Outputs,
      exec (.blockDataTransfer c p x) s = .next (s.append o)
      ∧ o.classify = .ok .blockDataTransfer ∧ o.condition = c
      ∧ o.MismatchesExcept .blockDataTransfer)
    ∧ (∀ x : BitVec 25, ∃ o : Outputs, exec (.coprocDataTransfer c x) s = .next (s.append o)
      ∧ o.classify = .ok .coprocDataTransfer ∧ o.condition = c
      ∧ o.MismatchesExcept .coprocDataTransfer)
    ∧ (∀ (x : BitVec 19) (lo : BitVec 4), ∃ o : Outputs,
      exec (.coprocDataOp c x lo) s = .next (s.append o)
      ∧ o.classify = .ok .coprocDataOp ∧ o.condition = c ∧ o.MismatchesExcept .coprocDataOp)
    ∧ (∀ (x : BitVec 19) (lo : BitVec 4), ∃ o : Outputs,
      exec (.coprocRegTransfer c x lo) s = .next (s.append o)
      ∧ o.classify = .ok .coprocRegTransfer ∧ o.condition = c
      ∧ o.MismatchesExcept .coprocRegTransfer)
    ∧ (∀ x : BitVec 24, ∃ o : Outputs, exec (.softwareInterrupt c x) s = .next (s.append o)
      ∧ o.classify = .ok .softwareInterrupt ∧ o.condition = c
      ∧ o.MismatchesExcept .softwareInterrupt)

/-- `UnclassifiedInstruction`, the hole: delivered as an error in the classification and in all five
results, with the word as payload, and the condition is still named (`60_exceptions.md` R200, R201). That the
error keeps its position and the run goes on is the spec's decision D24 in `20_memory.md` R36 (log
entry 13). -/
def Obligations.HoleWordsCompleteWithTheError : Prop :=
  ∀ (c : ConditionCode) (p : BitVec 2) (x : BitVec 22) (s : State),
    ∃ (o : Outputs) (w : Word),
      w = encode (.unclassifiedInstruction c p x)
      ∧ exec (.unclassifiedInstruction c p x) s = .next (s.append o)
      ∧ (s.append o).position = s.position + 1
      ∧ o.condition = c
      ∧ o.classify = .err (.unclassifiedInstruction w)
      ∧ o.dataProcessing = .err (.unclassifiedInstruction w)
      ∧ o.loadStore = .err (.unclassifiedInstruction w)
      ∧ o.branch = .err (.unclassifiedInstruction w)
      ∧ o.branchExchange = .err (.unclassifiedInstruction w)
      ∧ o.multiplyLong = .err (.unclassifiedInstruction w)

/-- Every instruction, well formed or not: the facade's part of the output is read from the word by
position alone, whatever the format (`43_instruction_facade.md` R120 to R128), and the condition is the
instruction's. -/
def Obligations.EveryInstructionReportsItsFacade : Prop :=
  ∀ (i : Instr) (s : State),
    ∃ o : Outputs, exec i s = .next (s.append o) ∧ o.FacadeOf (encode i) ∧ o.condition = i.cond

/-- The frame of every instruction: the byte source, the offset, the count and every earlier output stay,
the position advances by one, and exactly one output is added (`10_state.md` R10, `20_memory.md` R34,
R36). -/
def Obligations.EveryInstructionFrame : Prop :=
  ∀ (i : Instr) (s t : State), exec i s = .next t →
    t.bytes = s.bytes ∧ (∀ p, Memory.read t.bytes p = Memory.read s.bytes p)
    ∧ t.offset = s.offset ∧ t.count = s.count ∧ t.position = s.position + 1
    ∧ ∃ o, t.outputs = s.outputs ++ [o]

/-! ## Decoding and encoding -/

/-- Decoding an encoded well-formed instruction gives it back, a parent row as its sub-row. -/
def Obligations.DecodeInvertsEncode : Prop :=
  ∀ i : Instr, i.wf = true →
    decodeWord (encode i) = i.specific ∧ decode (wordBytes (encode i)) = .ok (i.specific, [])

/-- No bit of a word is lost: encoding the decoded instruction gives the word back, and what the decoder
gives is well formed and the most specific row. -/
def Obligations.EncodeInvertsDecode : Prop :=
  ∀ w : Word,
    encode (decodeWord w) = w ∧ (decodeWord w).wf = true ∧ (decodeWord w).specific = decodeWord w

/-- An ill-formed instruction is one whose word belongs to another row: a data-processing word that an
earlier row takes, or a word of the shadowed row 10. -/
def Obligations.WellFormedMeansInOwnRegion : Prop :=
  ∀ i : Instr, i.wf = true ↔
    classify (encode i) =
      match i.rowFormat with
      | some f => .ok f
      | none => .err (.unclassifiedInstruction (encode i))

/-- Words of the spec's own examples decode to the instructions they stand for. -/
def Obligations.SampleWordsDecode : Prop :=
  decodeWord 0xE3A00301 = .mov .AL false 0 0 (.imm 3 1)
  ∧ decodeWord 0xE1A01312 = .mov .AL false 0 1 (.indirect 6 0 2)
  ∧ decodeWord 0xE59FD0B8 = .ldr .AL true true false false 15 13 (.imm 0x0B8)
  ∧ decodeWord 0xEA00002E = .branchLinkFalse .AL 0x00002E
  ∧ decodeWord 0xE12FFF1E = .branchAndExchange .AL 14
  ∧ decodeWord 0xE0841392 = .multiplyLongUnsignedTrueAccumulateFalse .AL false 4 1 3 2
  ∧ decodeWord 0xE8FD8010 = .unclassifiedInstruction .AL 1 0x3D8010
  ∧ decodeWord 0xEF000011 = .softwareInterrupt .AL 0x000011

/-! ## Steps and runs -/

/-- A step runs the instruction that the bytes at `offset + 4 * position` decode to. -/
def Obligations.StepRunsTheDecodedInstruction : Prop :=
  (∀ (s : State) (i : Instr) (rest : List Byte), s.position < s.count →
    decode (Memory.readBytes s.bytes s.wordAddress 4) = .ok (i, rest) → step s = exec i s)
  ∧ (∀ (m : Memory) (p : Nat) (w : Word), Memory.wordAt m p = some w →
      decode (Memory.readBytes m p 4) = .ok (decodeWord w, []))

/-- The machine is the block: a step appends the block's outputs for the word present at the position,
whatever the state holds otherwise. That all outputs are there at once is the spec's decision D1 (log
entry 14), in `70_reset_and_hazards.md` R220. -/
def Obligations.StepDeliversTheBlocksOutputs : Prop :=
  ∀ (s : State) (w : Word), s.nextWord = some w →
    step s = .next (s.append (blockOutputs Config.coarseMap w))

/-- A step delivers an output exactly when a word is ready; otherwise it stops by name. That the run ends with
the count the caller asked for is the spec's decision D27 in `70_reset_and_hazards.md` R225 (log entry 13),
and its refusal is the model's (log entry 2). Without four bytes no word is presented (`20_memory.md` R32),
and the refusal's name and payload are the model's (log entry 8). -/
def Obligations.StepStopsOnlyWithoutAWord : Prop :=
  ∀ s : State,
    (SafeStep s ↔ s.WordReady)
    ∧ (¬ s.position < s.count → step s = .refused .sequenceEnded)
    ∧ (s.position < s.count → Memory.wordAt s.bytes s.wordAddress = none →
        step s = .refused (.insufficientBytes s.wordAddress))

/-- `70_reset_and_hazards.md` R231: two presentations of one word, in any two states, add equal outputs. -/
def Obligations.OutputDependsOnTheWordAlone : Prop :=
  ∀ (s s' t : State), s.nextWord = s'.nextWord → step s = .next t →
    ∃ (t' : State) (o : Outputs), step s' = .next t'
      ∧ t.outputs = s.outputs ++ [o] ∧ t'.outputs = s'.outputs ++ [o]

/-- `20_memory.md` R36: a run over `n` words gives `f(w_0) .. f(w_(n-1))`, one entry per word, in order. That
an error occupies its position and the run goes on is the spec's decision D24, and that the run ends with
the count the caller asked for is its decision D27 (log entry 13). -/
def Obligations.RunDeliversTheWholeSequence : Prop :=
  ∀ (s : State) (n : Nat) (ws : List Word),
    Memory.wordSequence s.bytes s.wordAddress n = some ws → s.position + n ≤ s.count →
    ∃ t : State, Host.Core.run Sys2Proof.core n s = .next t
      ∧ t.bytes = s.bytes ∧ t.offset = s.offset ∧ t.count = s.count
      ∧ t.position = s.position + n
      ∧ t.outputs = s.outputs ++ blockSequence Config.coarseMap ws
      ∧ (s.position + n = s.count → step t = .refused .sequenceEnded)

/-- Every step keeps the invariant: the byte source stays canonical, and the output sequence stays, entry
for entry, the block's outputs for the words presented. -/
def Obligations.StepKeepsThePositionalInvariant : Prop :=
  ∀ s t : State, s.Inv → step s = .next t → t.Inv

/-- The model's reset meets the invariant. The spec gives no reset state: `State.reset` is the model's choice
(log entry 2). -/
def Obligations.ResetMeetsThePositionalInvariant : Prop := State.reset.Inv

/-- Reset holds nothing and presents no word: the model's choice for the parties around the stateless
block (log entry 2); the block itself has nothing to reset (`10_state.md` R27). -/
def Obligations.ResetPresentsNoWord : Prop :=
  State.reset.bytes = [] ∧ State.reset.offset = 0 ∧ State.reset.count = 0
  ∧ State.reset.position = 0 ∧ State.reset.outputs = []
  ∧ step State.reset = .refused .sequenceEnded

/-- The word placed by `withFetchWord` is the instruction the next step runs. -/
def Obligations.PlacedWordRunsNext : Prop :=
  ∀ (s : State) (w : Nat), w < 2 ^ 32 →
    ∃ i : Instr, decodeTableWord 32 w = some i ∧ encode i = BitVec.ofNat 32 w
      ∧ step (s.withFetchWord 32 w) = exec i (s.withFetchWord 32 w)

/-! ## Output ports -/

/-- `10_state.md` R29: the port codes. Every number is the spec's own choice, its decisions D3, D5, D7 and D8
(log entries 4, 6 and 9), not a rule of the source. Each code is pinned: the status and the error payload by
the result, every other code by the table or by the bits of the word it stands for. -/
def Obligations.PortCodesAreOneToOne : Prop :=
  -- formats: the row number minus 1
  (∀ f g, formatCode f = formatCode g → f = g)
  ∧ (∀ (k : Nat) (P : Word → Bool) (f : InstructionFormat),
      predicateTable[k]? = some (P, f) → (formatCode f).toNat = k)
  -- result status: 0, 1 or 2 by the result, and which of them each operation gives
  ∧ (∀ (α : Type) (r : Result α),
      (statusCode r = 0#2 ↔ ∃ v, r = .ok v)
      ∧ (statusCode r = 1#2 ↔ ∃ w, r = .err (.unclassifiedInstruction w))
      ∧ (statusCode r = 2#2 ↔ ∃ e a, r = .err (.formatMismatch e a))
      ∧ statusCode r ≠ 3#2)
  ∧ (∀ w : Word, statusCode (classify w) ≠ 2#2
      ∧ (statusCode (classify w) = 1#2 ↔ w.extractLsb' 25 3 = 0b100#3 ∧ w.getLsbD 22 = true)
      ∧ (statusCode (decodeDataProcessing w) = 0#2 ↔ classify w = .ok .dataProcessingPsr)
      ∧ (statusCode (decodeDataProcessing w) = 1#2 ↔ statusCode (classify w) = 1#2)
      ∧ (statusCode (decodeLoadStore w) = 0#2 ↔ classify w = .ok .loadStore)
      ∧ (statusCode (decodeLoadStore w) = 1#2 ↔ statusCode (classify w) = 1#2)
      ∧ (statusCode (decodeBranch w) = 0#2 ↔ classify w = .ok .branch)
      ∧ (statusCode (decodeBranch w) = 1#2 ↔ statusCode (classify w) = 1#2)
      ∧ (statusCode (decodeBranchExchange w) = 0#2 ↔ classify w = .ok .branchAndExchange)
      ∧ (statusCode (decodeBranchExchange w) = 1#2 ↔ statusCode (classify w) = 1#2)
      ∧ (statusCode (decodeMultiplyLong w) = 0#2 ↔ classify w = .ok .multiplyLong)
      ∧ (statusCode (decodeMultiplyLong w) = 1#2 ↔ statusCode (classify w) = 1#2))
  -- error payload: the word of status 1, the two format codes of status 2
  ∧ (∀ w : Word, errorPayload (.unclassifiedInstruction w) = .inl w)
  ∧ (∀ e a, errorPayload (.formatMismatch e a) = .inr (formatCode e, formatCode a))
  ∧ (∀ x y, errorPayload x = errorPayload y → x = y)
  -- condition and opcodes: the word's own bits
  ∧ (∀ c d : ConditionCode, c.bits = d.bits → c = d)
  ∧ (∀ w : Word, (condition w).bits = w.extractLsb' 28 4)
  ∧ (∀ a b : DpOpcode, a.bits = b.bits → a = b)
  ∧ (∀ w r, decodeDataProcessing w = .ok r → r.opcode.bits = w.extractLsb' 21 4)
  ∧ LsOpcode.LDR.bit = true ∧ LsOpcode.STR.bit = false
  ∧ (∀ w r, decodeLoadStore w = .ok r → r.opcode.bit = w.getLsbD 20)
  -- shift types and tags
  ∧ (∀ a b, shiftTypeCode a = shiftTypeCode b → a = b)
  ∧ (∀ w : Word, shiftTypeCode (shiftField w).label = w.extractLsb' 5 2)
  ∧ (∀ w : Word, operand2Tag (decodeOperand2 w) =
      if w.getLsbD 25 then 0 else if w.getLsbD 4 then 2 else 1)
  ∧ (∀ o : Operand2, operand2Tag o ≠ 3#2)
  ∧ (∀ w : Word, offsetTag (decodeOffset w) = BitVec.ofBool (w.getLsbD 25))
  -- coarse class
  ∧ (∀ a b, coarseClassCode a = coarseClassCode b → a = b)
  ∧ (∀ w : Word, coarseClassCode (coarseClass Config.defaultCoarseMap w) = w.extractLsb' 26 2)
end

