-- ==== Sys2Proof/Laws/Encoding.lean ====
section
/-! SUPPORT. Every encoder word as a sum of its fields, each at its bit position (the layouts of
`30_encoding.md` R42 to R47), the name tables as inverse bijections, and the byte order. -/

namespace Sys2Proof

/-- Concatenation as arithmetic. -/
theorem toNat_append_mul {n m : Nat} (x : BitVec n) (y : BitVec m) :
    (x ++ y).toNat = x.toNat * 2 ^ m + y.toNat := by
  rw [BitVec.toNat_append, ← Nat.shiftLeft_add_eq_or_of_lt y.isLt, Nat.shiftLeft_eq]

theorem Bool.toNat_le_one (b : Bool) : b.toNat ≤ 1 := by cases b <;> decide

/-! ## Name tables -/

@[simp] theorem condName_bits (c : ConditionCode) : condName c.bits = c := by cases c <;> rfl

@[simp] theorem bits_condName (v : BitVec 4) : (condName v).bits = v := by revert v; decide

@[simp] theorem dpOpcodeName_bits (op : DpOpcode) : dpOpcodeName op.bits = op := by cases op <;> rfl

@[simp] theorem bits_dpOpcodeName (v : BitVec 4) : (dpOpcodeName v).bits = v := by revert v; decide

@[simp] theorem lsOpcodeName_bit (op : LsOpcode) : lsOpcodeName op.bit = op := by cases op <;> rfl

@[simp] theorem bit_lsOpcodeName (b : Bool) : (lsOpcodeName b).bit = b := by cases b <;> rfl

/-! ## Bytes -/

theorem toNat_assembleWord (b0 b1 b2 b3 : Byte) : (assembleWord b0 b1 b2 b3).toNat =
    b0.toNat + 2 ^ 8 * b1.toNat + 2 ^ 16 * b2.toNat + 2 ^ 24 * b3.toNat := by
  have h : assembleWord b0 b1 b2 b3 = b3 ++ b2 ++ b1 ++ b0 := by
    apply BitVec.eq_of_getLsbD_eq
    intro i hi
    simp only [assembleWord, BitVec.getLsbD_or, BitVec.getLsbD_append, BitVec.getLsbD_shiftLeft,
      BitVec.getLsbD_setWidth]
    interval_cases i <;> simp
  rw [h]
  simp only [toNat_append_mul]
  omega

/-- The bytes of a word assemble to it. -/
theorem assembleWord_wordBytes (w : Word) : assembleWord (w.extractLsb' 0 8) (w.extractLsb' 8 8)
    (w.extractLsb' 16 8) (w.extractLsb' 24 8) = w := by
  apply BitVec.eq_of_toNat_eq
  have h := w.isLt
  simp only [toNat_assembleWord, BitVec.extractLsb'_toNat, Nat.shiftRight_eq_div_pow]
  omega

/-- The bytes of a word decode to its instruction. -/
theorem decode_wordBytes (w : Word) : decode (wordBytes w) = .ok (decodeWord w, []) := by
  simp [wordBytes, decode, assembleWord_wordBytes]

theorem decodeTableWord_of_word (w : Nat) : decodeTableWord 32 w =
    some (decodeWord (BitVec.ofNat 32 (w % 2 ^ 32))) := by
  simp [decodeTableWord, decode_wordBytes]

/-! ## Operand bits -/

theorem Op2Form.toNat_low12 (op2 : Op2Form) : op2.low12.toNat =
    match op2 with
    | .imm rot v => rot.toNat * 2 ^ 8 + v.toNat
    | .direct count ty low => count.toNat * 2 ^ 7 + ty.toNat * 2 ^ 5 + low.toNat
    | .indirect reg ty low => reg.toNat * 2 ^ 7 + ty.toNat * 2 ^ 5 + 2 ^ 4 + low.toNat := by
  cases op2 <;> simp only [Op2Form.low12, toNat_append_mul, BitVec.toNat_ofNat] <;> omega

theorem OffsetForm.toNat_low12 (off : OffsetForm) : off.low12.toNat =
    match off with
    | .imm v => v.toNat
    | .shift count ty bit4 reg =>
      count.toNat * 2 ^ 7 + ty.toNat * 2 ^ 5 + bit4.toNat * 2 ^ 4 + reg.toNat := by
  cases off with
  | imm v => rfl
  | shift count ty bit4 reg =>
    simp only [OffsetForm.low12, toNat_append_mul, BitVec.toNat_ofBool]
    omega

/-! ## Words -/

section
variable (c : ConditionCode)

theorem toNat_dpWord (op : DpOpcode) (f : Bool) (rn rd : BitVec 4) (op2 : Op2Form) : (dpWord c op f rn rd op2).toNat =
    c.bits.toNat * 2 ^ 28 + op2.bit25.toNat * 2 ^ 25 + op.bits.toNat * 2 ^ 21 + f.toNat * 2 ^ 20
      + rn.toNat * 2 ^ 16 + rd.toNat * 2 ^ 12 + op2.low12.toNat := by
  simp only [dpWord, toNat_append_mul, BitVec.toNat_ofBool, BitVec.toNat_ofNat]
  omega

theorem toNat_lsWord (op : LsOpcode) (p u b w : Bool) (rn rd : BitVec 4) (off : OffsetForm) : (lsWord c op p u b w rn rd off).toNat =
    c.bits.toNat * 2 ^ 28 + 2 ^ 26 + off.bit25.toNat * 2 ^ 25 + p.toNat * 2 ^ 24 + u.toNat * 2 ^ 23
      + b.toNat * 2 ^ 22 + w.toNat * 2 ^ 21 + op.bit.toNat * 2 ^ 20 + rn.toNat * 2 ^ 16
      + rd.toNat * 2 ^ 12 + off.low12.toNat := by
  simp only [lsWord, toNat_append_mul, BitVec.toNat_ofBool, BitVec.toNat_ofNat]
  omega

theorem toNat_branchWord (l : Bool) (off : BitVec 24) : (branchWord c l off).toNat =
    c.bits.toNat * 2 ^ 28 + 5 * 2 ^ 25 + l.toNat * 2 ^ 24 + off.toNat := by
  simp only [branchWord, toNat_append_mul, BitVec.toNat_ofBool, BitVec.toNat_ofNat]
  omega

theorem toNat_bxWord (t : BitVec 4) : (bxWord c t).toNat =
    c.bits.toNat * 2 ^ 28 + 0x12FFF1 * 2 ^ 4 + t.toNat := by
  simp only [bxWord, toNat_append_mul, BitVec.toNat_ofNat]
  omega

theorem toNat_mlWord (u a f : Bool) (hi lo m n : BitVec 4) : (mlWord c u a f hi lo m n).toNat =
    c.bits.toNat * 2 ^ 28 + 2 ^ 23 + u.toNat * 2 ^ 22 + a.toNat * 2 ^ 21 + f.toNat * 2 ^ 20
      + hi.toNat * 2 ^ 16 + lo.toNat * 2 ^ 12 + m.toNat * 2 ^ 8 + 9 * 2 ^ 4 + n.toNat := by
  simp only [mlWord, toNat_append_mul, BitVec.toNat_ofBool, BitVec.toNat_ofNat]
  omega

theorem toNat_multiplyWord (x : BitVec 14) (lo : BitVec 4) : (multiplyWord c x lo).toNat =
    c.bits.toNat * 2 ^ 28 + x.toNat * 2 ^ 8 + 9 * 2 ^ 4 + lo.toNat := by
  simp only [multiplyWord, toNat_append_mul, BitVec.toNat_ofNat]
  omega

theorem toNat_swapWord (b : Bool) (x : BitVec 8) (lo : BitVec 4) : (swapWord c b x lo).toNat =
    c.bits.toNat * 2 ^ 28 + 2 * 2 ^ 23 + b.toNat * 2 ^ 22 + x.toNat * 2 ^ 12 + 9 * 2 ^ 4 + lo.toNat := by
  simp only [swapWord, toNat_append_mul, BitVec.toNat_ofBool, BitVec.toNat_ofNat]
  omega

theorem toNat_halfwordRegWord (p : BitVec 2) (x : BitVec 10) (lo : BitVec 4) : (halfwordRegWord c p x lo).toNat =
    c.bits.toNat * 2 ^ 28 + p.toNat * 2 ^ 23 + x.toNat * 2 ^ 12 + 11 * 2 ^ 4 + lo.toNat := by
  simp only [halfwordRegWord, toNat_append_mul, BitVec.toNat_ofNat]
  omega

theorem toNat_halfwordImmWord (p : BitVec 2) (x : BitVec 14) (lo : BitVec 4) : (halfwordImmWord c p x lo).toNat =
    c.bits.toNat * 2 ^ 28 + p.toNat * 2 ^ 23 + 2 ^ 22 + x.toNat * 2 ^ 8 + 11 * 2 ^ 4 + lo.toNat := by
  simp only [halfwordImmWord, toNat_append_mul, BitVec.toNat_ofNat]
  omega

theorem toNat_signedWord (x : BitVec 17) (b : Bool) (lo : BitVec 4) : (signedWord c x b lo).toNat =
    c.bits.toNat * 2 ^ 28 + x.toNat * 2 ^ 8 + 3 * 2 ^ 6 + b.toNat * 2 ^ 5 + 2 ^ 4 + lo.toNat := by
  simp only [signedWord, toNat_append_mul, BitVec.toNat_ofBool, BitVec.toNat_ofNat]
  omega

theorem toNat_undefinedWord (x : BitVec 20) (lo : BitVec 4) : (undefinedWord c x lo).toNat =
    c.bits.toNat * 2 ^ 28 + 3 * 2 ^ 25 + x.toNat * 2 ^ 5 + 2 ^ 4 + lo.toNat := by
  simp only [undefinedWord, toNat_append_mul, BitVec.toNat_ofNat]
  omega

theorem toNat_blockTransferWord (p : BitVec 2) (x : BitVec 22) : (blockTransferWord c p x).toNat =
    c.bits.toNat * 2 ^ 28 + 4 * 2 ^ 25 + p.toNat * 2 ^ 23 + x.toNat := by
  simp only [blockTransferWord, toNat_append_mul, BitVec.toNat_ofNat]
  omega

theorem toNat_coprocDataTransferWord (x : BitVec 25) : (coprocDataTransferWord c x).toNat =
    c.bits.toNat * 2 ^ 28 + 6 * 2 ^ 25 + x.toNat := by
  simp only [coprocDataTransferWord, toNat_append_mul, BitVec.toNat_ofNat]
  omega

theorem toNat_coprocDataOpWord (x : BitVec 19) (lo : BitVec 4) : (coprocDataOpWord c x lo).toNat =
    c.bits.toNat * 2 ^ 28 + 14 * 2 ^ 24 + x.toNat * 2 ^ 5 + lo.toNat := by
  simp only [coprocDataOpWord, toNat_append_mul, BitVec.toNat_ofNat]
  omega

theorem toNat_coprocRegTransferWord (x : BitVec 19) (lo : BitVec 4) : (coprocRegTransferWord c x lo).toNat =
    c.bits.toNat * 2 ^ 28 + 14 * 2 ^ 24 + x.toNat * 2 ^ 5 + 2 ^ 4 + lo.toNat := by
  simp only [coprocRegTransferWord, toNat_append_mul, BitVec.toNat_ofNat]
  omega

theorem toNat_softwareInterruptWord (x : BitVec 24) : (softwareInterruptWord c x).toNat =
    c.bits.toNat * 2 ^ 28 + 15 * 2 ^ 24 + x.toNat := by
  simp only [softwareInterruptWord, toNat_append_mul, BitVec.toNat_ofNat]
  omega

theorem toNat_holeWord (p : BitVec 2) (x : BitVec 22) : (holeWord c p x).toNat =
    c.bits.toNat * 2 ^ 28 + 4 * 2 ^ 25 + p.toNat * 2 ^ 23 + 2 ^ 22 + x.toNat := by
  simp only [holeWord, toNat_append_mul, BitVec.toNat_ofNat]
  omega

end

/-! ## The condition field -/

/-- Bits 31:28 of a word that is `v` above 28 lower bits. -/
theorem extractLsb'_top {w : Word} {v : BitVec 4} {x : Nat} (h : w.toNat = v.toNat * 2 ^ 28 + x)
    (hx : x < 2 ^ 28) : w.extractLsb' 28 4 = v := by
  apply BitVec.eq_of_toNat_eq
  have := v.isLt
  rw [BitVec.extractLsb'_toNat, Nat.shiftRight_eq_div_pow, h]
  omega

end Sys2Proof
end

