-- ==== Sys2Proof/Laws/Extract.lean ====
section
/-! SUPPORT. The Bit-Field Extractor as arithmetic and as a slice; every field lemma goes through these. -/

namespace Sys2Proof.Machine

/-- `extract` as division and remainder, the form `omega` reads. -/
theorem extract_eq_div_mod (w : Word) (lsb msb : Nat) (h : ExtractDomain lsb msb) :
    extract w lsb msb h = w.toNat / 2 ^ lsb % 2 ^ (msb - lsb + 1) := by
  simp [extract, Nat.shiftRight_eq_div_pow, Nat.one_shiftLeft, Nat.and_two_pow_sub_one_eq_mod]

/-- `extract` as a slice of the bit vector. -/
theorem extract_eq_extractLsb' (w : Word) (lsb msb : Nat) (h : ExtractDomain lsb msb) :
    extract w lsb msb h = (w.extractLsb' lsb (msb - lsb + 1)).toNat := by
  rw [extract_eq_div_mod, BitVec.extractLsb'_toNat, Nat.shiftRight_eq_div_pow]

/-- A field put back in a bit vector of its own width is the slice. -/
theorem ofNat_extract (w : Word) (lsb msb : Nat) (h : ExtractDomain lsb msb) :
    BitVec.ofNat (msb - lsb + 1) (extract w lsb msb h) = w.extractLsb' lsb (msb - lsb + 1) := by
  rw [extract_eq_extractLsb', BitVec.ofNat_toNat, BitVec.setWidth_eq]

/-- A one-bit field is the bit. -/
theorem bit_eq_getLsbD (w : Word) (i : Nat) (h : ExtractDomain i i) : bit w i h = w.getLsbD i := by
  rw [bit, extract_eq_div_mod, BitVec.getLsbD, Nat.testBit_eq_decide_div_mod_eq]
  simp [Bool.beq_eq_decide_eq]

/-- A one-bit field compared with 1. -/
theorem extract_self_eq_one (w : Word) (i : Nat) (h : ExtractDomain i i) :
    extract w i i h = 1 ↔ w.getLsbD i = true := by
  rw [← bit_eq_getLsbD w i h, bit, beq_iff_eq]

/-- A one-bit field compared with 0. -/
theorem extract_self_eq_zero (w : Word) (i : Nat) (h : ExtractDomain i i) :
    extract w i i h = 0 ↔ w.getLsbD i = false := by
  rw [← bit_eq_getLsbD w i h, bit, beq_eq_false_iff_ne, extract_eq_div_mod]
  simp

end Sys2Proof.Machine
end

