-- ==== Sys2Proof/Laws/Memory.lean ====
section
/-! SUPPORT. The byte source: what a write does to a read, that every operation keeps the canonical form,
and what the fetch reads. -/

namespace Sys2Proof.Machine

theorem Memory.wf_nil : Memory.wf [] = true := rfl

theorem Memory.wf_reset : Memory.wf State.reset.bytes = true := rfl

theorem Memory.wf_tail {c : Host.Cell} {m : Memory} (h : Memory.wf (c :: m) = true) :
    Memory.wf m = true := by
  cases m with
  | nil => rfl
  | cons d m => simp only [Memory.wf, Bool.and_eq_true] at h; exact h.2

/-- In a canonical byte source no position below the first listed one holds a byte. -/
theorem Memory.read_below_head {m : Memory} {c : Host.Cell} {p : Nat}
    (h : Memory.wf (c :: m) = true) (hp : p < c.1) : Memory.read (c :: m) p = none := by
  induction m generalizing c with
  | nil => simp [Memory.read]; omega
  | cons d m ih =>
    simp only [Memory.wf, Bool.and_eq_true, decide_eq_true_eq] at h
    have hd := ih (c := d) h.2 (by omega)
    rw [Memory.read, if_neg (by omega), hd]

theorem Memory.read_write_same (m : Memory) (p : Nat) (b : Byte) :
    Memory.read (Memory.write m p b) p = some b := by
  induction m with
  | nil => simp [Memory.write, Memory.read]
  | cons c m ih =>
    simp only [Memory.write]
    split
    · simp [Memory.read]
    · split
      · simp [Memory.read]
      · rw [Memory.read, if_neg (by omega), ih]

theorem Memory.read_write_other (m : Memory) {p q : Nat} (b : Byte) (h : q ≠ p) :
    Memory.read (Memory.write m p b) q = Memory.read m q := by
  induction m with
  | nil => simp [Memory.write, Memory.read]; omega
  | cons c m ih =>
    simp only [Memory.write]
    split
    · rw [Memory.read, if_neg (by simp; omega)]
    · split
      · rw [Memory.read, if_neg (by simp; omega), Memory.read, if_neg (by omega)]
      · simp only [Memory.read, ih]

/-- The first position of a byte source after a write. -/
theorem Memory.head_write (m : Memory) (p : Nat) (b : Byte) (c : Host.Cell) (hc : c.1 < p)
    (hw : Memory.wf (c :: m) = true) : ∃ d rest, Memory.write m p b = d :: rest ∧ c.1 < d.1 := by
  cases m with
  | nil => exact ⟨_, _, rfl, hc⟩
  | cons d m =>
    simp only [Memory.wf, Bool.and_eq_true, decide_eq_true_eq] at hw
    simp only [Memory.write]
    split
    · exact ⟨_, _, rfl, hc⟩
    · split
      · exact ⟨_, _, rfl, hc⟩
      · exact ⟨_, _, rfl, hw.1⟩

theorem Memory.wf_cons {c d : Host.Cell} {m : Memory} (hcd : c.1 < d.1)
    (h : Memory.wf (d :: m) = true) : Memory.wf (c :: d :: m) = true := by
  simp only [Memory.wf, Bool.and_eq_true, decide_eq_true_eq]; exact ⟨hcd, h⟩

theorem Memory.wf_replace_head {c d : Host.Cell} {m : Memory} (hcd : d.1 = c.1)
    (h : Memory.wf (c :: m) = true) : Memory.wf (d :: m) = true := by
  cases m with
  | nil => rfl
  | cons e m =>
    simp only [Memory.wf, Bool.and_eq_true, decide_eq_true_eq] at h ⊢
    exact ⟨by omega, h.2⟩

/-- A write keeps the canonical form. -/
theorem Memory.write_wf (m : Memory) (p : Nat) (b : Byte) (h : Memory.wf m = true) :
    Memory.wf (Memory.write m p b) = true := by
  induction m with
  | nil => rfl
  | cons c m ih =>
    simp only [Memory.write]
    split
    · exact Memory.wf_cons ‹_› h
    · split
      · exact Memory.wf_replace_head ‹_› h
      · obtain ⟨d, rest, hd, hlt⟩ := Memory.head_write m p b c (by omega) h
        have hw := ih (Memory.wf_tail h)
        rw [hd] at hw ⊢
        exact Memory.wf_cons hlt hw

/-- Writing several bytes keeps the canonical form. -/
theorem Memory.writeBytes_wf (bs : List Byte) (m : Memory) (p : Nat) (h : Memory.wf m = true) :
    Memory.wf (Memory.writeBytes m p bs) = true := by
  induction bs generalizing m p with
  | nil => exact h
  | cons b bs ih => exact ih _ _ (Memory.write_wf m p b h)

/-- Placing a word for the next fetch keeps the canonical form. -/
theorem State.withFetchWord_wf (s : State) (nbits w : Nat) (h : Memory.wf s.bytes = true) :
    Memory.wf (s.withFetchWord nbits w).bytes = true :=
  Memory.writeBytes_wf _ _ _ h

theorem Memory.read_writeBytes_below (bs : List Byte) (m : Memory) {p q : Nat} (h : q < p) :
    Memory.read (Memory.writeBytes m p bs) q = Memory.read m q := by
  induction bs generalizing m p with
  | nil => rfl
  | cons b bs ih =>
    rw [Memory.writeBytes, ih _ (by omega), Memory.read_write_other _ _ (by omega)]

/-- A byte written by `writeBytes` reads back. -/
theorem Memory.read_writeBytes (bs : List Byte) (m : Memory) (p k : Nat) (hk : k < bs.length) :
    Memory.read (Memory.writeBytes m p bs) (p + k) = some bs[k] := by
  induction bs generalizing m p k with
  | nil => simp at hk
  | cons b bs ih =>
    cases k with
    | zero =>
      simp only [Memory.writeBytes, Nat.add_zero]
      rw [Memory.read_writeBytes_below _ _ (by omega), Memory.read_write_same]
      rfl
    | succ k =>
      have h := ih (Memory.write m p b) (p + 1) k (by simpa using hk)
      rw [Memory.writeBytes, show p + (k + 1) = p + 1 + k by omega, h]
      rfl

/-- Outside the bytes written, `writeBytes` changes no read. -/
theorem Memory.read_writeBytes_other (bs : List Byte) (m : Memory) (p q : Nat)
    (h : q < p ∨ p + bs.length ≤ q) :
    Memory.read (Memory.writeBytes m p bs) q = Memory.read m q := by
  induction bs generalizing m p with
  | nil => rfl
  | cons b bs ih =>
    simp only [List.length_cons] at h
    rw [Memory.writeBytes, ih _ _ (by omega), Memory.read_write_other _ _ (by omega)]

/-- Four bytes read are the word there. -/
theorem Memory.readBytes_of_wordAt {m : Memory} {p : Nat} {w : Word}
    (h : Memory.wordAt m p = some w) :
    ∃ b0 b1 b2 b3, Memory.readBytes m p 4 = [b0, b1, b2, b3] ∧ w = assembleWord b0 b1 b2 b3 := by
  unfold Memory.wordAt at h
  split at h
  · rename_i b0 b1 b2 b3 h0 h1 h2 h3
    refine ⟨b0, b1, b2, b3, ?_, (Option.some.inj h).symm⟩
    simp [Memory.readBytes, h0, h1, h2, h3]
  · cases h

/-- Without four bytes the fetch comes short. -/
theorem Memory.readBytes_of_no_wordAt {m : Memory} {p : Nat} (h : Memory.wordAt m p = none) :
    (Memory.readBytes m p 4).length < 4 := by
  cases h0 : Memory.read m p with
  | none => simp [Memory.readBytes, h0]
  | some b0 =>
    cases h1 : Memory.read m (p + 1) with
    | none => simp [Memory.readBytes, h0, h1]
    | some b1 =>
      cases h2 : Memory.read m (p + 2) with
      | none => simp [Memory.readBytes, h0, h1, h2]
      | some b2 =>
        cases h3 : Memory.read m (p + 3) with
        | none => simp [Memory.readBytes, h0, h1, h2, h3]
        | some b3 => simp [Memory.wordAt, h0, h1, h2, h3] at h

end Sys2Proof.Machine
end

