-- ==== Sys2Proof/Laws/PerInstr.lean ====
section
/-! SUPPORT. One family of statements about every instruction as syntax: its word carries its condition in
bits 31:28 (`30_encoding.md` R41), one lemma per constructor. -/

namespace Sys2Proof.Laws.ConditionField

/-- Bits 31:28 of the instruction's word are its condition. -/
def Statement (i : Instr) : Prop := (encode i).extractLsb' 28 4 = i.cond.bits

section
variable (c : ConditionCode)

theorem dpWord_cond (op : DpOpcode) (f : Bool) (rn rd : BitVec 4) (op2 : Op2Form) : (dpWord c op f rn rd op2).extractLsb' 28 4 = c.bits := by
  have h0 := op.bits.isLt
  have h1 := Bool.toNat_le_one f
  have h2 := rn.isLt
  have h3 := rd.isLt
  have h4 := op2.low12.isLt
  have h5 := Bool.toNat_le_one op2.bit25
  exact extractLsb'_top (v := c.bits)
    (x := op2.bit25.toNat * 2 ^ 25 + op.bits.toNat * 2 ^ 21 + f.toNat * 2 ^ 20
      + rn.toNat * 2 ^ 16 + rd.toNat * 2 ^ 12 + op2.low12.toNat)
    (by rw [toNat_dpWord]; omega) (by omega)

theorem lsWord_cond (op : LsOpcode) (p u b w : Bool) (rn rd : BitVec 4) (off : OffsetForm) : (lsWord c op p u b w rn rd off).extractLsb' 28 4 = c.bits := by
  have h0 := Bool.toNat_le_one op.bit
  have h1 := Bool.toNat_le_one p
  have h2 := Bool.toNat_le_one u
  have h3 := Bool.toNat_le_one b
  have h4 := Bool.toNat_le_one w
  have h5 := rn.isLt
  have h6 := rd.isLt
  have h7 := off.low12.isLt
  have h8 := Bool.toNat_le_one off.bit25
  exact extractLsb'_top (v := c.bits)
    (x := 2 ^ 26 + off.bit25.toNat * 2 ^ 25 + p.toNat * 2 ^ 24 + u.toNat * 2 ^ 23
      + b.toNat * 2 ^ 22 + w.toNat * 2 ^ 21 + op.bit.toNat * 2 ^ 20 + rn.toNat * 2 ^ 16
      + rd.toNat * 2 ^ 12 + off.low12.toNat)
    (by rw [toNat_lsWord]; omega) (by omega)

theorem branchWord_cond (l : Bool) (off : BitVec 24) : (branchWord c l off).extractLsb' 28 4 = c.bits := by
  have h0 := Bool.toNat_le_one l
  have h1 := off.isLt
  exact extractLsb'_top (v := c.bits)
    (x := 5 * 2 ^ 25 + l.toNat * 2 ^ 24 + off.toNat)
    (by rw [toNat_branchWord]; omega) (by omega)

theorem bxWord_cond (t : BitVec 4) : (bxWord c t).extractLsb' 28 4 = c.bits := by
  have h0 := t.isLt
  exact extractLsb'_top (v := c.bits)
    (x := 0x12FFF1 * 2 ^ 4 + t.toNat)
    (by rw [toNat_bxWord]; omega) (by omega)

theorem mlWord_cond (u a f : Bool) (hi lo m n : BitVec 4) : (mlWord c u a f hi lo m n).extractLsb' 28 4 = c.bits := by
  have h0 := Bool.toNat_le_one u
  have h1 := Bool.toNat_le_one a
  have h2 := Bool.toNat_le_one f
  have h3 := hi.isLt
  have h4 := lo.isLt
  have h5 := m.isLt
  have h6 := n.isLt
  exact extractLsb'_top (v := c.bits)
    (x := 2 ^ 23 + u.toNat * 2 ^ 22 + a.toNat * 2 ^ 21 + f.toNat * 2 ^ 20
      + hi.toNat * 2 ^ 16 + lo.toNat * 2 ^ 12 + m.toNat * 2 ^ 8 + 9 * 2 ^ 4 + n.toNat)
    (by rw [toNat_mlWord]; omega) (by omega)

theorem multiplyWord_cond (x : BitVec 14) (lo : BitVec 4) : (multiplyWord c x lo).extractLsb' 28 4 = c.bits := by
  have h0 := x.isLt
  have h1 := lo.isLt
  exact extractLsb'_top (v := c.bits)
    (x := x.toNat * 2 ^ 8 + 9 * 2 ^ 4 + lo.toNat)
    (by rw [toNat_multiplyWord]; omega) (by omega)

theorem swapWord_cond (b : Bool) (x : BitVec 8) (lo : BitVec 4) : (swapWord c b x lo).extractLsb' 28 4 = c.bits := by
  have h0 := Bool.toNat_le_one b
  have h1 := x.isLt
  have h2 := lo.isLt
  exact extractLsb'_top (v := c.bits)
    (x := 2 * 2 ^ 23 + b.toNat * 2 ^ 22 + x.toNat * 2 ^ 12 + 9 * 2 ^ 4 + lo.toNat)
    (by rw [toNat_swapWord]; omega) (by omega)

theorem halfwordRegWord_cond (p : BitVec 2) (x : BitVec 10) (lo : BitVec 4) : (halfwordRegWord c p x lo).extractLsb' 28 4 = c.bits := by
  have h0 := p.isLt
  have h1 := x.isLt
  have h2 := lo.isLt
  exact extractLsb'_top (v := c.bits)
    (x := p.toNat * 2 ^ 23 + x.toNat * 2 ^ 12 + 11 * 2 ^ 4 + lo.toNat)
    (by rw [toNat_halfwordRegWord]; omega) (by omega)

theorem halfwordImmWord_cond (p : BitVec 2) (x : BitVec 14) (lo : BitVec 4) : (halfwordImmWord c p x lo).extractLsb' 28 4 = c.bits := by
  have h0 := p.isLt
  have h1 := x.isLt
  have h2 := lo.isLt
  exact extractLsb'_top (v := c.bits)
    (x := p.toNat * 2 ^ 23 + 2 ^ 22 + x.toNat * 2 ^ 8 + 11 * 2 ^ 4 + lo.toNat)
    (by rw [toNat_halfwordImmWord]; omega) (by omega)

theorem signedWord_cond (x : BitVec 17) (b : Bool) (lo : BitVec 4) : (signedWord c x b lo).extractLsb' 28 4 = c.bits := by
  have h0 := x.isLt
  have h1 := Bool.toNat_le_one b
  have h2 := lo.isLt
  exact extractLsb'_top (v := c.bits)
    (x := x.toNat * 2 ^ 8 + 3 * 2 ^ 6 + b.toNat * 2 ^ 5 + 2 ^ 4 + lo.toNat)
    (by rw [toNat_signedWord]; omega) (by omega)

theorem undefinedWord_cond (x : BitVec 20) (lo : BitVec 4) : (undefinedWord c x lo).extractLsb' 28 4 = c.bits := by
  have h0 := x.isLt
  have h1 := lo.isLt
  exact extractLsb'_top (v := c.bits)
    (x := 3 * 2 ^ 25 + x.toNat * 2 ^ 5 + 2 ^ 4 + lo.toNat)
    (by rw [toNat_undefinedWord]; omega) (by omega)

theorem blockTransferWord_cond (p : BitVec 2) (x : BitVec 22) : (blockTransferWord c p x).extractLsb' 28 4 = c.bits := by
  have h0 := p.isLt
  have h1 := x.isLt
  exact extractLsb'_top (v := c.bits)
    (x := 4 * 2 ^ 25 + p.toNat * 2 ^ 23 + x.toNat)
    (by rw [toNat_blockTransferWord]; omega) (by omega)

theorem coprocDataTransferWord_cond (x : BitVec 25) : (coprocDataTransferWord c x).extractLsb' 28 4 = c.bits := by
  have h0 := x.isLt
  exact extractLsb'_top (v := c.bits)
    (x := 6 * 2 ^ 25 + x.toNat)
    (by rw [toNat_coprocDataTransferWord]; omega) (by omega)

theorem coprocDataOpWord_cond (x : BitVec 19) (lo : BitVec 4) : (coprocDataOpWord c x lo).extractLsb' 28 4 = c.bits := by
  have h0 := x.isLt
  have h1 := lo.isLt
  exact extractLsb'_top (v := c.bits)
    (x := 14 * 2 ^ 24 + x.toNat * 2 ^ 5 + lo.toNat)
    (by rw [toNat_coprocDataOpWord]; omega) (by omega)

theorem coprocRegTransferWord_cond (x : BitVec 19) (lo : BitVec 4) : (coprocRegTransferWord c x lo).extractLsb' 28 4 = c.bits := by
  have h0 := x.isLt
  have h1 := lo.isLt
  exact extractLsb'_top (v := c.bits)
    (x := 14 * 2 ^ 24 + x.toNat * 2 ^ 5 + 2 ^ 4 + lo.toNat)
    (by rw [toNat_coprocRegTransferWord]; omega) (by omega)

theorem softwareInterruptWord_cond (x : BitVec 24) : (softwareInterruptWord c x).extractLsb' 28 4 = c.bits := by
  have h0 := x.isLt
  exact extractLsb'_top (v := c.bits)
    (x := 15 * 2 ^ 24 + x.toNat)
    (by rw [toNat_softwareInterruptWord]; omega) (by omega)

theorem holeWord_cond (p : BitVec 2) (x : BitVec 22) : (holeWord c p x).extractLsb' 28 4 = c.bits := by
  have h0 := p.isLt
  have h1 := x.isLt
  exact extractLsb'_top (v := c.bits)
    (x := 4 * 2 ^ 25 + p.toNat * 2 ^ 23 + 2 ^ 22 + x.toNat)
    (by rw [toNat_holeWord]; omega) (by omega)

end

theorem multiply : ∀ c x lo, Statement (.multiply c x lo) :=
  fun c x lo => multiplyWord_cond c x lo

theorem multiplyLong : ∀ c u a f hi lo m n, Statement (.multiplyLong c u a f hi lo m n) :=
  fun c u a f hi lo m n => mlWord_cond c u a f hi lo m n

theorem branchAndExchange : ∀ c t, Statement (.branchAndExchange c t) :=
  fun c t => bxWord_cond c t

theorem singleDataSwap : ∀ c b x lo, Statement (.singleDataSwap c b x lo) :=
  fun c b x lo => swapWord_cond c b x lo

theorem halfwordDataTransferReg : ∀ c p x lo, Statement (.halfwordDataTransferReg c p x lo) :=
  fun c p x lo => halfwordRegWord_cond c p x lo

theorem halfwordDataTransferImm : ∀ c p x lo, Statement (.halfwordDataTransferImm c p x lo) :=
  fun c p x lo => halfwordImmWord_cond c p x lo

theorem signedDataTransfer : ∀ c x b lo, Statement (.signedDataTransfer c x b lo) :=
  fun c x b lo => signedWord_cond c x b lo

theorem dataProcessingPsr : ∀ c op f rn rd op2, Statement (.dataProcessingPsr c op f rn rd op2) :=
  fun c op f rn rd op2 => dpWord_cond c op f rn rd op2

theorem loadStore : ∀ c op p u b w rn rd off, Statement (.loadStore c op p u b w rn rd off) :=
  fun c op p u b w rn rd off => lsWord_cond c op p u b w rn rd off

theorem undefined : ∀ c x lo, Statement (.undefined c x lo) :=
  fun c x lo => undefinedWord_cond c x lo

theorem blockDataTransfer : ∀ c p x, Statement (.blockDataTransfer c p x) :=
  fun c p x => blockTransferWord_cond c p x

theorem branch : ∀ c l off, Statement (.branch c l off) :=
  fun c l off => branchWord_cond c l off

theorem coprocDataTransfer : ∀ c x, Statement (.coprocDataTransfer c x) :=
  fun c x => coprocDataTransferWord_cond c x

theorem coprocDataOp : ∀ c x lo, Statement (.coprocDataOp c x lo) :=
  fun c x lo => coprocDataOpWord_cond c x lo

theorem coprocRegTransfer : ∀ c x lo, Statement (.coprocRegTransfer c x lo) :=
  fun c x lo => coprocRegTransferWord_cond c x lo

theorem softwareInterrupt : ∀ c x, Statement (.softwareInterrupt c x) :=
  fun c x => softwareInterruptWord_cond c x

theorem unclassifiedInstruction : ∀ c p x, Statement (.unclassifiedInstruction c p x) :=
  fun c p x => holeWord_cond c p x

theorem and : ∀ c f rn rd op2, Statement (.and c f rn rd op2) :=
  fun c f rn rd op2 => dpWord_cond c .AND f rn rd op2

theorem eor : ∀ c f rn rd op2, Statement (.eor c f rn rd op2) :=
  fun c f rn rd op2 => dpWord_cond c .EOR f rn rd op2

theorem sub : ∀ c f rn rd op2, Statement (.sub c f rn rd op2) :=
  fun c f rn rd op2 => dpWord_cond c .SUB f rn rd op2

theorem rsb : ∀ c f rn rd op2, Statement (.rsb c f rn rd op2) :=
  fun c f rn rd op2 => dpWord_cond c .RSB f rn rd op2

theorem add : ∀ c f rn rd op2, Statement (.add c f rn rd op2) :=
  fun c f rn rd op2 => dpWord_cond c .ADD f rn rd op2

theorem adc : ∀ c f rn rd op2, Statement (.adc c f rn rd op2) :=
  fun c f rn rd op2 => dpWord_cond c .ADC f rn rd op2

theorem sbc : ∀ c f rn rd op2, Statement (.sbc c f rn rd op2) :=
  fun c f rn rd op2 => dpWord_cond c .SBC f rn rd op2

theorem rsc : ∀ c f rn rd op2, Statement (.rsc c f rn rd op2) :=
  fun c f rn rd op2 => dpWord_cond c .RSC f rn rd op2

theorem tst : ∀ c f rn rd op2, Statement (.tst c f rn rd op2) :=
  fun c f rn rd op2 => dpWord_cond c .TST f rn rd op2

theorem teq : ∀ c f rn rd op2, Statement (.teq c f rn rd op2) :=
  fun c f rn rd op2 => dpWord_cond c .TEQ f rn rd op2

theorem cmp : ∀ c f rn rd op2, Statement (.cmp c f rn rd op2) :=
  fun c f rn rd op2 => dpWord_cond c .CMP f rn rd op2

theorem cmn : ∀ c f rn rd op2, Statement (.cmn c f rn rd op2) :=
  fun c f rn rd op2 => dpWord_cond c .CMN f rn rd op2

theorem orr : ∀ c f rn rd op2, Statement (.orr c f rn rd op2) :=
  fun c f rn rd op2 => dpWord_cond c .ORR f rn rd op2

theorem mov : ∀ c f rn rd op2, Statement (.mov c f rn rd op2) :=
  fun c f rn rd op2 => dpWord_cond c .MOV f rn rd op2

theorem bic : ∀ c f rn rd op2, Statement (.bic c f rn rd op2) :=
  fun c f rn rd op2 => dpWord_cond c .BIC f rn rd op2

theorem mvn : ∀ c f rn rd op2, Statement (.mvn c f rn rd op2) :=
  fun c f rn rd op2 => dpWord_cond c .MVN f rn rd op2

theorem ldr : ∀ c p u b w rn rd off, Statement (.ldr c p u b w rn rd off) :=
  fun c p u b w rn rd off => lsWord_cond c .LDR p u b w rn rd off

theorem str : ∀ c p u b w rn rd off, Statement (.str c p u b w rn rd off) :=
  fun c p u b w rn rd off => lsWord_cond c .STR p u b w rn rd off

theorem branchLinkFalse : ∀ c off, Statement (.branchLinkFalse c off) :=
  fun c off => branchWord_cond c false off

theorem branchLinkTrue : ∀ c off, Statement (.branchLinkTrue c off) :=
  fun c off => branchWord_cond c true off

theorem multiplyLongUnsignedTrueAccumulateFalse : ∀ c f hi lo m n, Statement (.multiplyLongUnsignedTrueAccumulateFalse c f hi lo m n) :=
  fun c f hi lo m n => mlWord_cond c false false f hi lo m n

theorem multiplyLongUnsignedTrueAccumulateTrue : ∀ c f hi lo m n, Statement (.multiplyLongUnsignedTrueAccumulateTrue c f hi lo m n) :=
  fun c f hi lo m n => mlWord_cond c false true f hi lo m n

theorem multiplyLongUnsignedFalseAccumulateFalse : ∀ c f hi lo m n, Statement (.multiplyLongUnsignedFalseAccumulateFalse c f hi lo m n) :=
  fun c f hi lo m n => mlWord_cond c true false f hi lo m n

theorem multiplyLongUnsignedFalseAccumulateTrue : ∀ c f hi lo m n, Statement (.multiplyLongUnsignedFalseAccumulateTrue c f hi lo m n) :=
  fun c f hi lo m n => mlWord_cond c true true f hi lo m n

end Sys2Proof.Laws.ConditionField
end

