-- ==== Sys2Proof/Laws/State.lean ====
section
/-! SUPPORT. One lemma per field for each update of the state. -/

namespace Sys2Proof.Machine

variable (s : State) (o : Outputs) (nbits w : Nat)

@[simp] theorem State.append_bytes : (s.append o).bytes = s.bytes := rfl
@[simp] theorem State.append_offset : (s.append o).offset = s.offset := rfl
@[simp] theorem State.append_count : (s.append o).count = s.count := rfl
@[simp] theorem State.append_position : (s.append o).position = s.position + 1 := rfl
@[simp] theorem State.append_outputs : (s.append o).outputs = s.outputs ++ [o] := rfl

@[simp] theorem State.withFetchWord_bytes : (s.withFetchWord nbits w).bytes =
    Memory.writeBytes s.bytes s.wordAddress (wordBytes (BitVec.ofNat 32 (w % 2 ^ nbits))) := rfl
@[simp] theorem State.withFetchWord_offset : (s.withFetchWord nbits w).offset = s.offset := rfl
@[simp] theorem State.withFetchWord_count :
    (s.withFetchWord nbits w).count = max s.count (s.position + 1) := rfl
@[simp] theorem State.withFetchWord_position :
    (s.withFetchWord nbits w).position = s.position := rfl
@[simp] theorem State.withFetchWord_outputs : (s.withFetchWord nbits w).outputs = s.outputs := rfl
@[simp] theorem State.withFetchWord_wordAddress :
    (s.withFetchWord nbits w).wordAddress = s.wordAddress := rfl

@[simp] theorem State.append_wordAddress : (s.append o).wordAddress = s.wordAddress + 4 := by
  simp [State.wordAddress]; omega

@[simp] theorem State.reset_bytes : State.reset.bytes = [] := rfl
@[simp] theorem State.reset_offset : State.reset.offset = 0 := rfl
@[simp] theorem State.reset_count : State.reset.count = 0 := rfl
@[simp] theorem State.reset_position : State.reset.position = 0 := rfl
@[simp] theorem State.reset_outputs : State.reset.outputs = [] := rfl

end Sys2Proof.Machine
end

