-- ==== Sys2Proof/Laws/Step.lean ====
section
/-! SUPPORT. What an instruction, a fetch and a step can do, said once. -/

namespace Sys2Proof.Machine

/-- Every meaning presents its instruction's word. -/
theorem exec_eq_present (i : Instr) (s : State) : exec i s = present (encode i) s := by
  cases i <;> rfl

/-- `present` always answers a next state, this one. -/
theorem present_eq (w : Word) (s : State) :
    present w s = .next (s.append (blockOutputs Config.coarseMap w)) := rfl

/-- What an instruction answers. -/
theorem exec_eq_next (i : Instr) (s : State) :
    exec i s = .next (s.append (blockOutputs Config.coarseMap (encode i))) := by
  rw [exec_eq_present, present_eq]

/-- What the fetch decodes to where the four bytes exist. -/
theorem decode_readBytes_of_wordAt {m : Memory} {p : Nat} {w : Word}
    (h : Memory.wordAt m p = some w) :
    decode (Memory.readBytes m p 4) = .ok (decodeWord w, []) := by
  obtain ⟨b0, b1, b2, b3, hb, rfl⟩ := Memory.readBytes_of_wordAt h
  rw [hb]; rfl

/-- Fewer than four bytes decode to nothing. -/
theorem decode_of_short {bs : List Byte} (h : bs.length < 4) : decode bs = .error .truncated := by
  match bs, h with
  | [], _ => rfl
  | [_], _ => rfl
  | [_, _], _ => rfl
  | [_, _, _], _ => rfl

/-- What the fetch decodes to where a byte is missing. -/
theorem decode_readBytes_of_no_wordAt {m : Memory} {p : Nat} (h : Memory.wordAt m p = none) :
    decode (Memory.readBytes m p 4) = .error .truncated :=
  decode_of_short (Memory.readBytes_of_no_wordAt h)

/-- The three things a step can do. -/
theorem step_cases (s : State) :
    (∃ w, s.position < s.count ∧ Memory.wordAt s.bytes s.wordAddress = some w
        ∧ step s = exec (decodeWord w) s)
    ∨ (s.position < s.count ∧ Memory.wordAt s.bytes s.wordAddress = none
        ∧ step s = .refused (.insufficientBytes s.wordAddress))
    ∨ (¬ s.position < s.count ∧ step s = .refused .sequenceEnded) := by
  by_cases hp : s.position < s.count
  · cases hw : Memory.wordAt s.bytes s.wordAddress with
    | some w =>
      exact .inl ⟨w, hp, rfl, by rw [step, if_pos hp, decode_readBytes_of_wordAt hw]⟩
    | none =>
      exact .inr (.inl ⟨hp, rfl, by rw [step, if_pos hp, decode_readBytes_of_no_wordAt hw]⟩)
  · exact .inr (.inr ⟨hp, by rw [step, if_neg hp]⟩)

/-- What a step that answers a next state did. -/
theorem step_next {s t : State} (h : step s = .next t) :
    ∃ w, s.position < s.count ∧ Memory.wordAt s.bytes s.wordAddress = some w
      ∧ t = s.append (blockOutputs Config.coarseMap (encode (decodeWord w))) := by
  obtain ⟨w, hp, hw, hs⟩ | ⟨-, -, hs⟩ | ⟨-, hs⟩ := step_cases s
  · rw [hs, exec_eq_next] at h
    cases h
    exact ⟨w, hp, hw, rfl⟩
  · rw [hs] at h; cases h
  · rw [hs] at h; cases h

/-- The shared check of the five decoders, case by case. -/
theorem requireFormat_ok {α : Type} {e : InstructionFormat} {r : Result InstructionFormat}
    {a b : α} : requireFormat e r a = .ok b ↔ r = .ok e ∧ a = b := by
  cases r with
  | err x => simp [requireFormat]
  | ok f => by_cases h : f = e <;> simp [requireFormat, h]

theorem requireFormat_err {α : Type} {e : InstructionFormat} {r : Result InstructionFormat}
    {a : α} {x : DecodeError} : requireFormat e r a = .err x ↔
      r = .err x ∨ ∃ f, r = .ok f ∧ f ≠ e ∧ x = .formatMismatch e f := by
  cases r with
  | err y => simp [requireFormat]
  | ok f =>
    by_cases h : f = e
    · subst h; simp [requireFormat]
    · rw [requireFormat, if_neg h]
      constructor
      · rintro ⟨⟩; exact .inr ⟨f, rfl, h, rfl⟩
      · rintro (hx | ⟨g, hg, -, rfl⟩)
        · cases hx
        · cases hg; rfl

/-- The word placed by `withFetchWord` is the one the next step reads. -/
theorem State.withFetchWord_wordAt (s : State) (nbits w : Nat) :
    Memory.wordAt (s.withFetchWord nbits w).bytes s.wordAddress
      = some (BitVec.ofNat 32 (w % 2 ^ nbits)) := by
  have h (k : Nat) (hk : k < 4) := Memory.read_writeBytes
    (wordBytes (BitVec.ofNat 32 (w % 2 ^ nbits))) s.bytes s.wordAddress k hk
  have h0 := h 0 (by decide)
  rw [Nat.add_zero] at h0
  rw [State.withFetchWord_bytes, Memory.wordAt, h0, h 1 (by decide), h 2 (by decide),
    h 3 (by decide)]
  exact congrArg some (assembleWord_wordBytes _)

end Sys2Proof.Machine
end

