-- ==== Sys2Proof/Tests/Slice0.lean ====
section
/-! SUPPORT. Tests. Words and expected values are the spec's (`95_test_vectors.md`,
`96_classifier_vectors.md`) or are written out by hand from the patterns of `30_encoding.md` R42 to R47. -/

namespace Sys2Proof.Tests

open Sys2Proof Sys2Proof.Machine

/-! ## WellFormed: one ill-formed term for each check -/

/-- Row 1: the fields of 0xE0000091, which is `Multiply`. -/
theorem test_wf_multiply : (Instr.and .AL false 0 0 (.indirect 1 0 1)).wf = false := by decide
/-- Row 2: the fields of 0xE0841392, which is `MultiplyLong`. -/
theorem test_wf_multiply_long : (Instr.add .AL false 4 1 (.indirect 7 0 2)).wf = false := by decide
/-- Row 3: the fields of 0xE12FFF1E, which is `BranchAndExchange`. -/
theorem test_wf_branch_and_exchange : (Instr.teq .AL false 15 15 (.indirect 30 0 14)).wf = false := by
  decide
/-- Row 4: the fields of 0xE1012093, which is `SingleDataSwap`. -/
theorem test_wf_single_data_swap : (Instr.tst .AL false 1 2 (.indirect 1 0 3)).wf = false := by decide
/-- Row 5: the fields of 0xE19100B2, which is `HalfwordDataTransferReg`. -/
theorem test_wf_halfword_reg : (Instr.orr .AL true 1 0 (.indirect 1 1 2)).wf = false := by decide
/-- Row 6: the fields of 0xE1D100B2, which is `HalfwordDataTransferImm`. -/
theorem test_wf_halfword_imm : (Instr.bic .AL true 1 0 (.indirect 1 1 2)).wf = false := by decide
/-- Row 7: the fields of 0xE19100D2, which is `SignedDataTransfer`. -/
theorem test_wf_signed : (Instr.orr .AL true 1 0 (.indirect 1 2 2)).wf = false := by decide
/-- Row 10 is shadowed: no word of it is its own. -/
theorem test_wf_undefined : (Instr.undefined .AL 0xF8007 0).wf = false := by decide
/-- The same checks guard the parent row. -/
theorem test_wf_parent : (Instr.dataProcessingPsr .AL .AND false 0 0 (.indirect 1 0 1)).wf = false := by
  decide
/-- A near miss of row 3 stays a data-processing word: 0xE12FFF3E. -/
theorem test_wf_near_miss : (Instr.teq .AL false 15 15 (.indirect 30 1 14)).wf = true := by decide

/-! ## Decoding: a word written out for every constructor -/

/-- `1110 000000 00001000000100 1001 0011`. -/
theorem test_decode_multiply : decodeWord 0xE0020493 = .multiply .AL 0x0204 3 := by decide
/-- `1110 00001 0 0 0 0100 0001 0011 1001 0010`; the parent row's term has the same word. -/
theorem test_decode_ml_true_false :
    decodeWord 0xE0841392 = .multiplyLongUnsignedTrueAccumulateFalse .AL false 4 1 3 2
    ∧ encode (.multiplyLong .AL false false false 4 1 3 2) = 0xE0841392 := by decide
theorem test_decode_ml_true_true :
    decodeWord 0xE0A41392 = .multiplyLongUnsignedTrueAccumulateTrue .AL false 4 1 3 2 := by decide
theorem test_decode_ml_false_false :
    decodeWord 0xE0C41392 = .multiplyLongUnsignedFalseAccumulateFalse .AL false 4 1 3 2 := by decide
theorem test_decode_ml_false_true :
    decodeWord 0xE0FFFF9F = .multiplyLongUnsignedFalseAccumulateTrue .AL true 15 15 15 15 := by decide
/-- `1110 000100101111111111110001 1110`. -/
theorem test_decode_branch_and_exchange : decodeWord 0xE12FFF1E = .branchAndExchange .AL 14 := by decide
/-- `1110 00010 0 00 00010010 00001001 0011`. -/
theorem test_decode_single_data_swap : decodeWord 0xE1012093 = .singleDataSwap .AL false 0x12 3 := by
  decide
/-- `1110 000 11 0 0100010000 00001011 0010`. -/
theorem test_decode_halfword_reg :
    decodeWord 0xE19100B2 = .halfwordDataTransferReg .AL 3 0x110 2 := by decide
/-- `1110 000 11 1 01000100000000 1011 0010`. -/
theorem test_decode_halfword_imm :
    decodeWord 0xE1D100B2 = .halfwordDataTransferImm .AL 3 0x1100 2 := by decide
/-- `1110 000 11001000100000000 11 0 1 0010`. -/
theorem test_decode_signed : decodeWord 0xE19100D2 = .signedDataTransfer .AL 0x19100 false 2 := by decide
/-- `1110 011 11111000000000000111 1 0000`: a word of the shadowed row 10 decodes as `LDR`. -/
theorem test_decode_undefined :
    encode (.undefined .AL 0xF8007 0) = 0xE7F000F0
    ∧ decodeWord 0xE7F000F0 = .ldr .AL true true true true 0 0 (.shift 1 3 true 0) := by decide
/-- `1110 100 01 0 1111011000000000010000`. -/
theorem test_decode_block_transfer : decodeWord 0xE8BD8010 = .blockDataTransfer .AL 1 0x3D8010 := by
  decide
/-- `1110 110 1100100000000101000000000`. -/
theorem test_decode_coproc_data_transfer :
    decodeWord 0xED900A00 = .coprocDataTransfer .AL 0x1900A00 := by decide
/-- `1110 1110 0001001000110100000 0 0101`. -/
theorem test_decode_coproc_data_op : decodeWord 0xEE123405 = .coprocDataOp .AL 0x091A0 5 := by decide
/-- `1110 1110 0001000100001111000 1 0000`. -/
theorem test_decode_coproc_reg_transfer :
    decodeWord 0xEE110F10 = .coprocRegTransfer .AL 0x08878 0 := by decide
/-- `1110 1111 000000000000000000010001`. -/
theorem test_decode_software_interrupt : decodeWord 0xEF000011 = .softwareInterrupt .AL 0x000011 := by
  decide
/-- `1110 100 01 1 1111011000000000010000`. -/
theorem test_decode_hole : decodeWord 0xE8FD8010 = .unclassifiedInstruction .AL 1 0x3D8010 := by decide
/-- `1110 101 0 0x00002E`; the parent row's term has the same word. -/
theorem test_decode_branch :
    decodeWord 0xEA00002E = .branchLinkFalse .AL 0x00002E
    ∧ encode (.branch .AL false 0x00002E) = 0xEA00002E := by decide
theorem test_decode_branch_link : decodeWord 0xEBFFFFFE = .branchLinkTrue .AL 0xFFFFFE := by decide
/-- `1110 01 0 1 1 0 0 1 1111 1101 000010111000`; the parent row's term has the same word. -/
theorem test_decode_ldr :
    decodeWord 0xE59FD0B8 = .ldr .AL true true false false 15 13 (.imm 0x0B8)
    ∧ encode (.loadStore .AL .LDR true true false false 15 13 (.imm 0x0B8)) = 0xE59FD0B8 := by decide
/-- `1110 01 1 0 1 0 0 0 0001 0010 00100 00 0 0011`. -/
theorem test_decode_str :
    decodeWord 0xE6812203 = .str .AL false true false false 1 2 (.shift 4 0 false 3) := by decide
/-- The sixteen opcode rows of `95_test_vectors.md` section 2.5, with the parent row at the first. -/
theorem test_decode_and :
    decodeWord 0xE20120F0 = .and .AL false 1 2 (.imm 0 240)
    ∧ encode (.dataProcessingPsr .AL .AND false 1 2 (.imm 0 240)) = 0xE20120F0 := by decide
theorem test_decode_eor : decodeWord 0xE23231F1 = .eor .AL true 2 3 (.imm 1 241) := by decide
theorem test_decode_sub : decodeWord 0xE24342F2 = .sub .AL false 3 4 (.imm 2 242) := by decide
theorem test_decode_rsb : decodeWord 0xE27453F3 = .rsb .AL true 4 5 (.imm 3 243) := by decide
theorem test_decode_add : decodeWord 0xE28564F4 = .add .AL false 5 6 (.imm 4 244) := by decide
theorem test_decode_adc : decodeWord 0xE2B675F5 = .adc .AL true 6 7 (.imm 5 245) := by decide
theorem test_decode_sbc : decodeWord 0xE2C786F6 = .sbc .AL false 7 8 (.imm 6 246) := by decide
theorem test_decode_rsc : decodeWord 0xE2F897F7 = .rsc .AL true 8 9 (.imm 7 247) := by decide
theorem test_decode_tst : decodeWord 0xE309A8F8 = .tst .AL false 9 10 (.imm 8 248) := by decide
theorem test_decode_teq : decodeWord 0xE33AB9F9 = .teq .AL true 10 11 (.imm 9 249) := by decide
theorem test_decode_cmp : decodeWord 0xE34BCAFA = .cmp .AL false 11 12 (.imm 10 250) := by decide
theorem test_decode_cmn : decodeWord 0xE37CDBFB = .cmn .AL true 12 13 (.imm 11 251) := by decide
theorem test_decode_orr : decodeWord 0xE38DECFC = .orr .AL false 13 14 (.imm 12 252) := by decide
theorem test_decode_mov : decodeWord 0xE3BEFDFD = .mov .AL true 14 15 (.imm 13 253) := by decide
theorem test_decode_bic : decodeWord 0xE3CF0EFE = .bic .AL false 15 0 (.imm 14 254) := by decide
theorem test_decode_mvn : decodeWord 0xE3F01FFF = .mvn .AL true 0 1 (.imm 15 255) := by decide
/-- The two register shapes: `… 00010 00 0 0010` and `… 00110 00 1 0010`. -/
theorem test_decode_register_shapes :
    decodeWord 0xE1A01102 = .mov .AL false 0 1 (.direct 2 0 2)
    ∧ decodeWord 0xE1A01312 = .mov .AL false 0 1 (.indirect 6 0 2) := by decide
/-- `20_memory.md` R32: three bytes are no word. -/
theorem test_decode_truncated : decode [0xDE, 0xEA, 0xBE] = .error .truncated := by rfl
/-- The bytes after the word are handed back. -/
theorem test_decode_rest :
    decode [0x2E, 0x00, 0x00, 0xEA, 0x55] = .ok (.branchLinkFalse .AL 0x00002E, [0x55]) := by rfl
theorem test_decode_table_word : decodeTableWord 32 0xE8FD8010
    = some (.unclassifiedInstruction .AL 1 0x3D8010) := by decide

/-! ## The block -/

/-- `95_test_vectors.md` section 2.1. -/
theorem test_extract :
    extract 0xEFBEEADE 4 27 = 0xFBEEAD ∧ extract 0xEFBEEADE 1 31 = 0x77DF756F
    ∧ extract 0x80000000 0 30 = 0 ∧ extract 0xFFFFFFFF 0 31 = 4294967295 := by decide
theorem test_extract_refused :
    extractChecked 0xFFFFFFFF 4 3 = none ∧ extractChecked 0xFFFFFFFF 0 32 = none := by decide
/-- `20_memory.md` R30. -/
theorem test_assemble : assembleWord 0xDE 0xEA 0xBE 0xEF = 0xEFBEEADE := by decide
/-- `95_test_vectors.md` section 2.2. -/
theorem test_condition : condition 0x1A00002E = .NE ∧ condition 0xFFFFFFFF = .NV
    ∧ condition 0xE8FD8010 = .AL := by decide
/-- `95_test_vectors.md` section 2.3: the shadowed row and the row before the broad one. -/
theorem test_classify_order : classify 0xE7F000F0 = .ok .loadStore
    ∧ classify 0xE0020493 = .ok .multiply ∧ classify 0x00000000 = .ok .dataProcessingPsr := by decide
/-- `95_test_vectors.md` section 2.4, the row of 0xE59FD0B8. -/
theorem test_facade : coarseRaw 0xE59FD0B8 = 0b01 ∧ op2ImmediateBit 0xE59FD0B8 = false
    ∧ setFlagsBit 0xE59FD0B8 = true ∧ rn 0xE59FD0B8 = 15 ∧ rd 0xE59FD0B8 = 13
    ∧ shiftRegisterForm 0xE59FD0B8 = (0x0B, 8) ∧ rotateImmediateForm 0xE59FD0B8 = (0, 0xB8)
    ∧ operand2Raw 0xE59FD0B8 = 0x0B8 := by decide
theorem test_coarse_default :
    coarseClass Config.defaultCoarseMap 0xE92D4010 = some .branch
    ∧ coarseClass Config.defaultCoarseMap 0xEF000011 = none := by decide
/-- Source example S8. -/
theorem test_mismatch : decodeDataProcessing 0xEA00002E
    = .err (.formatMismatch .dataProcessingPsr .branch) := by decide
theorem test_hole : decodeBranch 0xE8FD8010 = .err (.unclassifiedInstruction 0xE8FD8010) := by decide
/-- Source example S5. -/
theorem test_multiply_long : decodeMultiplyLong 0xE0841392
    = .ok ⟨.AL, true, false, false, 4, 1, 3, 2⟩ := by decide
theorem test_error_payload : errorPayload (.formatMismatch .dataProcessingPsr .branch) = .inr (7, 11) := by
  decide

/-! ## Memory and steps -/

/-- The bytes `2E 00 00 EA 10 80 FD E8` at positions 192 to 199, a caller that asks for two words. -/
def twoWords : State :=
  { bytes := Memory.writeBytes [] 192 [0x2E, 0x00, 0x00, 0xEA, 0x10, 0x80, 0xFD, 0xE8]
    offset := 192
    count := 2
    position := 0
    outputs := [] }

theorem test_memory_canonical : Memory.wf twoWords.bytes = true
    ∧ Memory.write (Memory.write [] 5 1) 4 2 = Memory.write (Memory.write [] 4 2) 5 1 := by decide
theorem test_memory_unlisted : Memory.read twoWords.bytes 191 = none
    ∧ Memory.read twoWords.bytes 195 = some 0xEA ∧ Memory.wordAt twoWords.bytes 197 = none := by decide
/-- Any byte position will do (`20_memory.md` R37). -/
theorem test_word_unaligned : Memory.wordAt twoWords.bytes 193 = some 0x10EA0000 := by decide
theorem test_word_sequence :
    Memory.wordSequence twoWords.bytes 192 2 = some [0xEA00002E, 0xE8FD8010] := by decide
/-- The first word is the branch: nothing is redirected, position 1 is next. -/
theorem test_step_branch : ∃ t, step twoWords = .next t ∧ t.position = 1
    ∧ t.outputs.map (·.branch) = [.ok ⟨.AL, false, 0x00002E⟩] := ⟨_, rfl, rfl, by decide⟩
/-- An error occupies its position and the run goes on (`20_memory.md` R36). -/
theorem test_step_hole : ∃ t, step { twoWords with position := 1 } = .next t ∧ t.position = 2
    ∧ t.outputs.map (·.classify) = [.err (.unclassifiedInstruction 0xE8FD8010)] :=
  ⟨_, rfl, rfl, by decide⟩
theorem test_step_ended : step { twoWords with position := 2 } = .refused .sequenceEnded := by rfl
theorem test_step_missing_bytes : step { twoWords with offset := 193, position := 1 }
    = .refused (.insufficientBytes 197) := by rfl
/-- From reset, a placed word runs. -/
theorem test_fetch_word : ∃ t, step (State.reset.withFetchWord 32 0xEF000011) = .next t
    ∧ t.outputs.map (·.classify) = [.ok .softwareInterrupt] := ⟨_, rfl, by decide⟩

/-! ## Meanings: one field of the output of one instruction -/

theorem test_exec_mov : ∃ t, exec (.mov .AL false 0 0 (.imm 3 1)) .reset = .next t
    ∧ t.outputs.map (·.dataProcessing) = [.ok ⟨.AL, .MOV, 0, 0, .immediateRotate 3 1, false⟩] :=
  ⟨_, rfl, by decide⟩
theorem test_exec_ldr :
    ∃ t, exec (.ldr .AL true true false false 15 13 (.imm 0x0B8)) .reset = .next t
    ∧ t.outputs.map (·.loadStore)
      = [.ok ⟨.AL, .LDR, 13, 15, false, false, true, true, .immOffset 0x0B8⟩] := ⟨_, rfl, by decide⟩
theorem test_exec_bx : ∃ t, exec (.branchAndExchange .EQ 3) .reset = .next t
    ∧ t.outputs.map (·.branchExchange) = [.ok ⟨.EQ, 3⟩] := ⟨_, rfl, by decide⟩
theorem test_exec_multiply : ∃ t, exec (.multiply .AL 0x0204 3) .reset = .next t
    ∧ t.outputs.map (·.multiplyLong) = [.err (.formatMismatch .multiplyLong .multiply)] :=
  ⟨_, rfl, by decide⟩
theorem test_exec_undefined : ∃ t, exec (.undefined .AL 0xF8007 0) .reset = .next t
    ∧ t.outputs.map (·.classify) = [.ok .loadStore] := ⟨_, rfl, by decide⟩

/-! ## Witnesses: the hypotheses of the statements can be met, each clause at its boundary -/

theorem test_witness_ExtractOutsideDomainIsRefused :
    ExtractDomain 0 0 ∧ ExtractDomain 0 31 ∧ ExtractDomain 31 31
    ∧ ¬ExtractDomain 0 32 ∧ ¬ExtractDomain 1 0 ∧ ¬ExtractDomain 32 32 := by decide

theorem test_witness_ConditionNamesEachNibble :
    ∀ k : BitVec 4, ((k ++ 0x3A00301#28 : Word)).extractLsb' 28 4 = k := by decide

theorem test_witness_PredicatesOfRowsOneToEight :
    (0xE0400091#32).extractLsb' 23 5 = 0#5 ∧ (0xE0400091#32).getLsbD 22 = true
    ∧ (0xE0400091#32).extractLsb' 4 4 = 0b1001#4
    ∧ (0xE3A00301#32).extractLsb' 26 2 = 0#2 ∧ (0xE3A00301#32).getLsbD 25 = true
    ∧ classify 0xE1A01312 = .ok .dataProcessingPsr ∧ (0xE1A01312#32).getLsbD 25 = false
    ∧ (∀ r ∈ predicateTable.take 7, r.1 0xE1A01312 = false) := by decide

theorem test_witness_PredicatesOfRowsNineToSixteen :
    (0xE7F000F0#32).extractLsb' 26 2 = 0b01#2
    ∧ (0xE8FD8010#32).extractLsb' 25 3 = 0b100#3 ∧ (0xE8FD8010#32).getLsbD 22 = true
    ∧ (0xEA00002E#32).extractLsb' 25 3 = 0b101#3 := by decide

/-- The first and the last row of each clause, and a word of both rows of each overlap. -/
theorem test_witness_RowsOverlapOnlyAsListed :
    predicateTable[0]? = some (isMultiply, .multiply)
    ∧ predicateTable[6]? = some (isSignedDataTransfer, .signedDataTransfer)
    ∧ predicateTable[7]? = some (isDataProcessingPsr, .dataProcessingPsr)
    ∧ predicateTable[8]? = some (isLoadStore, .loadStore)
    ∧ predicateTable[9]? = some (isUndefined, .undefined)
    ∧ isMultiply 0xE0020493 = true ∧ isDataProcessingPsr 0xE0020493 = true
    ∧ isSignedDataTransfer 0xE19100D2 = true ∧ isDataProcessingPsr 0xE19100D2 = true
    ∧ isUndefined 0xE7F000F0 = true ∧ isLoadStore 0xE7F000F0 = true :=
  ⟨rfl, rfl, rfl, rfl, rfl, by decide⟩

theorem test_witness_UndefinedIsNeverProduced :
    isUndefined 0x06000010 = true ∧ isUndefined 0xFFFFFFFF = false ∧ isUndefined 0xF7FFFFFF = true := by
  decide

theorem test_witness_ClassifyReadsOnlyBits27To4 :
    (0x0A00002E#32).extractLsb' 4 24 = (0xFA000021#32).extractLsb' 4 24
    ∧ classify 0x0A00002E = .ok .branch
    ∧ (0xE8FD8010#32).extractLsb' 4 24 = (0x08FD801F#32).extractLsb' 4 24
    ∧ classify 0xE8FD8010 = .err (.unclassifiedInstruction 0xE8FD8010) := by decide

theorem test_witness_FacadeViewsOfOperand2Agree :
    (0xE59FD0B8#32).getLsbD 25 = false
    ∧ decodeLoadStore 0xE59FD0B8
      = .ok ⟨.AL, .LDR, 13, 15, false, false, true, true, .immOffset 0x0B8⟩ := by decide

theorem test_witness_CoarseClassAgainstFormat :
    classify 0xE0841392 = .ok .multiplyLong ∧ classify 0xE59FD0B8 = .ok .loadStore
    ∧ classify 0xE92D4010 = .ok .blockDataTransfer ∧ classify 0xEF000011 = .ok .softwareInterrupt
    ∧ classify 0xE8FD8010 = .err (.unclassifiedInstruction 0xE8FD8010) := by decide

theorem test_witness_FacadeAgreesWithDecoders :
    decodeDataProcessing 0xE3A00301 = .ok ⟨.AL, .MOV, 0, 0, .immediateRotate 3 1, false⟩
    ∧ decodeLoadStore 0xE7910102
      = .ok ⟨.AL, .LDR, 0, 1, false, false, true, true, .shiftOffset 2 ⟨0, .logicalLeft⟩ 2⟩
    ∧ decodeLoadStore 0xE59FD0B8
      = .ok ⟨.AL, .LDR, 13, 15, false, false, true, true, .immOffset 0x0B8⟩
    ∧ decodeMultiplyLong 0xE0841392 = .ok ⟨.AL, true, false, false, 4, 1, 3, 2⟩
    ∧ decodeBranchExchange 0xE12FFF1E = .ok ⟨.AL, 14⟩ := by decide

/-- The lowest and the highest word of the hole, and words beside it. -/
theorem test_witness_HoleAloneIsUnclassified :
    (0x08400000#32).extractLsb' 25 3 = 0b100#3 ∧ (0x08400000#32).getLsbD 22 = true
    ∧ (0xF9FFFFFF#32).extractLsb' 25 3 = 0b100#3 ∧ (0xF9FFFFFF#32).getLsbD 22 = true
    ∧ (0x083FFFFF#32).getLsbD 22 = false ∧ (0xFA400000#32).extractLsb' 25 3 ≠ 0b100#3
    ∧ (0x07FFFFFF#32).extractLsb' 25 3 ≠ 0b100#3 := by decide

/-- A word of a format none of the four decoders takes, and a word of the hole. -/
theorem test_witness_DecodersReportTheirErrors :
    classify 0xE19100B2 = .ok .halfwordDataTransferReg
    ∧ classify 0xEA00002E = .ok .branch ∧ classify 0xE92D4010 = .ok .blockDataTransfer
    ∧ (0xE8FD8010#32).extractLsb' 25 3 = 0b100#3 ∧ (0xE8FD8010#32).getLsbD 22 = true := by decide

theorem test_witness_DecodersSucceedOnDisjointRegions :
    classify 0xE3A00301 = .ok .dataProcessingPsr ∧ classify 0xE59FD0B8 = .ok .loadStore
    ∧ classify 0xEA00002E = .ok .branch ∧ classify 0xE12FFF1E = .ok .branchAndExchange
    ∧ classify 0xE0841392 = .ok .multiplyLong := by decide

theorem test_witness_DataProcessingFieldsAreRawRanges :
    classify 0xE3A00301 = .ok .dataProcessingPsr ∧ (0xE3A00301#32).getLsbD 25 = true
    ∧ classify 0xE1A01102 = .ok .dataProcessingPsr ∧ (0xE1A01102#32).getLsbD 25 = false
    ∧ (0xE1A01102#32).getLsbD 4 = false
    ∧ classify 0xE1A01312 = .ok .dataProcessingPsr ∧ (0xE1A01312#32).getLsbD 25 = false
    ∧ (0xE1A01312#32).getLsbD 4 = true := by decide

/-- For each of the sixteen opcode numbers an immediate word that the decoder accepts. -/
theorem test_witness_OpcodeNames : ∀ k : BitVec 4,
    classify (0b1110001#7 ++ k ++ 0x120F0#21) = .ok .dataProcessingPsr
    ∧ ((0b1110001#7 ++ k ++ 0x120F0#21 : Word)).extractLsb' 21 4 = k := by decide

theorem test_witness_ShiftedRegisterIsNotInTheRecord :
    (0xE1A01102#32).getLsbD 25 = false ∧ AgreeOutside 0 4 0xE1A01102 0xE1A0110F
    ∧ ∃ r, decodeDataProcessing 0xE1A01102 = .ok r := by
  refine ⟨by decide, ?_, _, rfl⟩
  intro k hk
  by_cases h : k < 32
  · interval_cases k <;> first | rfl | omega
  · rw [BitVec.getLsbD_of_ge _ _ (Nat.le_of_not_lt h), BitVec.getLsbD_of_ge _ _ (Nat.le_of_not_lt h)]

/-- The lowest and the highest register field, and bit 7 set. -/
theorem test_witness_IndirectShiftRegisterIsFiveBits :
    decodeDataProcessing 0xE1A01012
      = .ok ⟨.AL, .MOV, 1, 0, .shiftRegisterIndirect 0 ⟨0, .logicalLeft⟩, false⟩
    ∧ decodeDataProcessing 0xE1A01F92
      = .ok ⟨.AL, .MOV, 1, 0, .shiftRegisterIndirect 31 ⟨0, .logicalLeft⟩, false⟩
    ∧ (0xE1A01F92#32).getLsbD 7 = true := by decide

theorem test_witness_LoadStoreFieldsAreRawRanges :
    classify 0xE7910102 = .ok .loadStore ∧ (0xE7910102#32).getLsbD 20 = true
    ∧ (0xE7910102#32).getLsbD 25 = true
    ∧ classify 0xE5212008 = .ok .loadStore ∧ (0xE5212008#32).getLsbD 20 = false
    ∧ (0xE5212008#32).getLsbD 25 = false := by decide

theorem test_witness_LoadStoreIgnoresBitFour :
    (0xE7910102#32).getLsbD 25 = true ∧ AgreeOutside 4 1 0xE7910102 0xE7910112
    ∧ (∃ r, decodeLoadStore 0xE7910102 = .ok r) ∧ isUndefined 0xE7910112 = true := by
  refine ⟨by decide, ?_, ⟨_, rfl⟩, by decide⟩
  intro k hk
  by_cases h : k < 32
  · interval_cases k <;> first | rfl | omega
  · rw [BitVec.getLsbD_of_ge _ _ (Nat.le_of_not_lt h), BitVec.getLsbD_of_ge _ _ (Nat.le_of_not_lt h)]

theorem test_witness_BranchOffsetIsRaw :
    classify 0xE8FD8010 = .err (.unclassifiedInstruction 0xE8FD8010)
    ∧ classify 0xE92D4010 = .ok .blockDataTransfer ∧ classify 0xEA800000 = .ok .branch ∧ (0xEA800000#32).getLsbD 24 = false
    ∧ (0xEA800000#32).getLsbD 23 = true
    ∧ classify 0xEBFFFFFE = .ok .branch ∧ (0xEBFFFFFE#32).getLsbD 24 = true := by decide

theorem test_witness_BranchExchangeReportsTheIndex :
    classify 0xE12FFF1E = .ok .branchAndExchange ∧ classify 0xE59FD0B8 = .ok .loadStore
    ∧ classify 0xE8FD8010 = .err (.unclassifiedInstruction 0xE8FD8010) := by decide

/-- The ends of the range of `i`, and the two bits with an answer of their own. -/
theorem test_witness_BranchExchangeBitFlips :
    isBranchAndExchange 0xE12FFF1E = true
    ∧ classify (0xE12FFF1E ^^^ (1#32 <<< 4)) = .ok .dataProcessingPsr
    ∧ classify (0xE12FFF1E ^^^ (1#32 <<< 25)) = .ok .dataProcessingPsr
    ∧ classify (0xE12FFF1E ^^^ (1#32 <<< 26)) = .ok .loadStore
    ∧ classify (0xE12FFF1E ^^^ (1#32 <<< 27)) = .ok .blockDataTransfer := by decide

theorem test_witness_MultiplyLongFieldsAreRawRanges :
    classify 0xE0841392 = .ok .multiplyLong ∧ classify 0xE0020493 = .ok .multiply
    ∧ classify 0xE8FD8010 = .err (.unclassifiedInstruction 0xE8FD8010) := by decide

/-- Every opcode has well-formed words of every operand form, the indirect one with bit 7 set too. -/
theorem test_witness_DataProcessingWordsComplete :
    ∀ op ∈ [DpOpcode.AND, .EOR, .SUB, .RSB, .ADD, .ADC, .SBC, .RSC, .TST, .TEQ, .CMP, .CMN, .ORR, .MOV,
      .BIC, .MVN],
    (Instr.ofDpOpcode op .AL true 1 2 (.imm 0 240)).wf = true
    ∧ (Instr.ofDpOpcode op .NV false 15 15 (.direct 31 3 15)).wf = true
    ∧ (Instr.ofDpOpcode op .EQ false 0 0 (.indirect 30 3 15)).wf = true := by decide

/-- Bit 7 set: the highest register field with shift type 0, and one with type 1. -/
theorem test_witness_DataProcessingWordsComplete_bit7 :
    (Instr.mov .AL false 0 1 (.indirect 31 0 2)).wf = true
    ∧ (Instr.mov .AL false 0 1 (.indirect 31 1 2)).wf = true
    ∧ (Instr.and .AL false 0 1 (.indirect 31 1 2)).wf = true := by decide

theorem test_witness_EveryInstructionFrame : ∃ t, exec (.softwareInterrupt .AL 0) twoWords = .next t :=
  ⟨_, rfl⟩

theorem test_witness_DecodeInvertsEncode :
    (Instr.dataProcessingPsr .AL .MOV false 0 0 (.imm 3 1)).wf = true
    ∧ (Instr.loadStore .AL .STR false false false false 0 0 (.imm 0)).wf = true
    ∧ (Instr.branch .AL true 0xFFFFFF).wf = true
    ∧ (Instr.multiplyLong .AL true true true 15 15 15 15).wf = true
    ∧ (Instr.unclassifiedInstruction .AL 3 0x3FFFFF).wf = true := by decide

theorem test_witness_StepRunsTheDecodedInstruction :
    twoWords.position < twoWords.count
    ∧ decode (Memory.readBytes twoWords.bytes twoWords.wordAddress 4)
      = .ok (.branchLinkFalse .AL 0x00002E, [])
    ∧ Memory.wordAt twoWords.bytes 192 = some 0xEA00002E := ⟨by decide, by rfl, by decide⟩

theorem test_witness_StepDeliversTheBlocksOutputs : twoWords.nextWord = some 0xEA00002E := by decide

theorem test_witness_StepStopsOnlyWithoutAWord :
    ¬({ twoWords with position := 2 } : State).position < 2
    ∧ ({ twoWords with offset := 193, position := 1 } : State).position < 2
    ∧ Memory.wordAt twoWords.bytes
        ({ twoWords with offset := 193, position := 1 } : State).wordAddress = none := by decide

/-- Two states that differ in every field but present one word. -/
theorem test_witness_OutputDependsOnTheWordAlone :
    twoWords.nextWord = (State.reset.withFetchWord 32 0xEA00002E).nextWord
    ∧ ∃ t, step twoWords = .next t := ⟨by decide, _, rfl⟩

theorem test_witness_RunDeliversTheWholeSequence :
    Memory.wordSequence twoWords.bytes twoWords.wordAddress 2 = some [0xEA00002E, 0xE8FD8010]
    ∧ twoWords.position + 2 = twoWords.count := by decide

theorem twoWords_inv : twoWords.Inv :=
  ⟨by decide, by decide, by decide, fun j hj => absurd hj (Nat.not_lt_zero j)⟩

theorem test_witness_StepKeepsThePositionalInvariant : twoWords.Inv ∧ ∃ t, step twoWords = .next t :=
  ⟨twoWords_inv, _, rfl⟩

theorem test_witness_PlacedWordRunsNext : 0xFFFFFFFF < 2 ^ 32 ∧ 0 < 2 ^ 32 := by decide

theorem test_witness_PortCodesAreOneToOne :
    predicateTable[0]? = some (isMultiply, .multiply)
    ∧ predicateTable[15]? = some (isSoftwareInterrupt, .softwareInterrupt)
    ∧ formatCode .multiply = 0 ∧ formatCode .softwareInterrupt = 15
    ∧ (∃ r, decodeDataProcessing 0xE3A00301 = .ok r) ∧ (∃ r, decodeLoadStore 0xE59FD0B8 = .ok r) :=
  ⟨rfl, rfl, rfl, rfl, ⟨_, rfl⟩, ⟨_, rfl⟩⟩

/-- One word for each status and for each operand2 tag; the port of the record of 0xE3A00301. -/
theorem test_port_codes :
    statusCode (decodeBranch 0xEA00002E) = 0 ∧ statusCode (decodeBranch 0xE8FD8010) = 1
    ∧ statusCode (decodeBranch 0xE3A00301) = 2
    ∧ operand2Tag (decodeOperand2 0xE3A00301) = 0 ∧ operand2Tag (decodeOperand2 0xE1A01102) = 1
    ∧ operand2Tag (decodeOperand2 0xE1A01312) = 2 := by decide

end Sys2Proof.Tests
end

section
/-! PROOFS. Byte order of a word and the word at a byte position (`20_memory.md` R30). -/

namespace Sys2Proof

/-- The word's bytes are the four it was assembled from, in their order: with `assembleWord_wordBytes`,
splitting and assembling are inverse to each other. -/
@[simp] theorem wordBytes_assembleWord (b0 b1 b2 b3 : Byte) :
    wordBytes (assembleWord b0 b1 b2 b3) = [b0, b1, b2, b3] := by
  have h0 := b0.isLt
  have h1 := b1.isLt
  have h2 := b2.isLt
  have h3 := b3.isLt
  simp only [wordBytes, List.cons.injEq, and_true, ← BitVec.toNat_inj, BitVec.extractLsb'_toNat,
    toNat_assembleWord, Nat.shiftRight_eq_div_pow]
  omega

end Sys2Proof

namespace Sys2Proof.Machine

/-- A word exists at a byte position exactly when its four bytes do, and it is their assembly. -/
theorem Memory.wordAt_eq_some_iff {m : Memory} {p : Nat} {w : Word} :
    Memory.wordAt m p = some w ↔
      ∃ b0 b1 b2 b3, Memory.read m p = some b0 ∧ Memory.read m (p + 1) = some b1
        ∧ Memory.read m (p + 2) = some b2 ∧ Memory.read m (p + 3) = some b3
        ∧ w = assembleWord b0 b1 b2 b3 := by
  constructor
  · intro h
    unfold Memory.wordAt at h
    split at h
    case h_1 b0 b1 b2 b3 h0 h1 h2 h3 =>
      exact ⟨b0, b1, b2, b3, h0, h1, h2, h3, (Option.some.inj h).symm⟩
    case h_2 => cases h
  · rintro ⟨b0, b1, b2, b3, h0, h1, h2, h3, rfl⟩
    simp only [Memory.wordAt, h0, h1, h2, h3]

/-- Settles O3: the byte order is `wordBytes_assembleWord` read entry by entry, the word at a position
is `Memory.wordAt_eq_some_iff`, and the source's example is evaluated. -/
theorem wordAssemblyIsLittleEndian : Obligations.WordAssemblyIsLittleEndian := by
  refine ⟨fun b0 b1 b2 b3 => ?_, fun _ _ _ => Memory.wordAt_eq_some_iff, by decide⟩
  simpa only [wordBytes, List.cons.injEq, and_true] using wordBytes_assembleWord b0 b1 b2 b3

end Sys2Proof.Machine
end

section
/-! PROOFS. The Bit-Field Extractor: bound, bits, full width and single bit (`40_bitfield_extractor.md`
R60, R61). -/

namespace Sys2Proof.Machine

/-- The result fits the width of the range. -/
theorem extract_lt_two_pow (w : Word) {lsb msb : Nat} (h : ExtractDomain lsb msb) :
    extract w lsb msb h < 2 ^ (msb - lsb + 1) := by
  rw [extract_eq_extractLsb']
  exact BitVec.isLt _

/-- Bit `k` of the result, at any `k`: inside the width a bit of the word, above it clear. -/
theorem testBit_extract (w : Word) {lsb msb : Nat} (h : ExtractDomain lsb msb) (k : Nat) :
    (extract w lsb msb h).testBit k = (decide (k < msb - lsb + 1) && w.getLsbD (lsb + k)) := by
  rw [extract_eq_extractLsb', BitVec.testBit_toNat, BitVec.getLsbD_extractLsb']

/-- The whole range is the word itself: the width-32 mask clears nothing. -/
theorem extract_full_width (w : Word) : extract w 0 31 = w.toNat := by
  rw [extract_eq_extractLsb', BitVec.extractLsb'_eq_self]

/-- A range of one bit is that bit as a number. -/
theorem extract_self (w : Word) (i : Nat) (h : ExtractDomain i i) :
    extract w i i h = (w.getLsbD i).toNat := by
  cases hb : w.getLsbD i
  case false => exact (extract_self_eq_zero w i h).mpr hb
  case true => exact (extract_self_eq_one w i h).mpr hb

/-- Settles O1: the bound, the bits, the full width and the single bit are the four lemmas above, and the
rules' three examples are evaluated. -/
theorem extractIsRightJustifiedField : Obligations.ExtractIsRightJustifiedField := by
  refine ⟨fun w lsb msb h => ⟨extract_lt_two_pow w h, fun k hk => ?_⟩, extract_full_width, extract_self,
    by decide, by decide, by decide⟩
  rw [testBit_extract, decide_eq_true (Nat.lt_succ_of_le hk), Bool.true_and]

end Sys2Proof.Machine
end

section
/-! PROOFS. The Format Classifier: what the first match answers, and what its sixteen predicates say as bit
ranges (`41_format_classifier.md` R70 to R88). -/

namespace Sys2Proof.Machine

/-! ## First match -/

/-- Rows that all fail are passed over. -/
theorem firstMatch_append_of_all_fail {w : Word} {rows : List ((Word → Bool) × InstructionFormat)}
    (h : ∀ r ∈ rows, r.1 w = false) (rest : List ((Word → Bool) × InstructionFormat)) :
    firstMatch w (rows ++ rest) = firstMatch w rest := by
  induction rows with
  | nil => rfl
  | cons row rows ih =>
    obtain ⟨hrow, hrows⟩ := List.forall_mem_cons.mp h
    rw [List.cons_append, firstMatch, hrow, if_neg Bool.false_ne_true, ih hrows]

/-- `Ok` of a format exactly when its row is the first that holds. -/
theorem firstMatch_eq_ok_iff {w : Word} {rows : List ((Word → Bool) × InstructionFormat)}
    {f : InstructionFormat} : firstMatch w rows = .ok f ↔
      ∃ (k : Nat) (P : Word → Bool), rows[k]? = some (P, f) ∧ P w = true
        ∧ ∀ r ∈ rows.take k, r.1 w = false := by
  induction rows with
  | nil => simp [firstMatch]
  | cons row rows ih =>
    rw [← Nat.or_exists_add_one]
    cases hrow : row.1 w with
    | true =>
      simp [firstMatch, hrow, Prod.ext_iff, List.forall_mem_cons, -List.mem_cons, -Prod.forall]
    | false =>
      simp [firstMatch, hrow, ih, Prod.ext_iff, List.forall_mem_cons, -List.mem_cons, -Prod.forall]

/-- The error, with the word, exactly when every row fails. -/
theorem firstMatch_eq_unclassified_iff {w : Word}
    {rows : List ((Word → Bool) × InstructionFormat)} :
    firstMatch w rows = .err (.unclassifiedInstruction w) ↔ ∀ r ∈ rows, r.1 w = false := by
  induction rows with
  | nil => simp [firstMatch]
  | cons row rows ih =>
    rw [List.forall_mem_cons, firstMatch, ← ih]
    cases row.1 w <;> simp

/-- The rows before row `k`, by position. -/
theorem forall_mem_take_iff {rows : List ((Word → Bool) × InstructionFormat)} {k : Nat}
    {C : (Word → Bool) → Prop} : (∀ r ∈ rows.take k, C r.1) ↔
      ∀ (j : Nat) (Q : Word → Bool) (g : InstructionFormat), j < k →
        rows[j]? = some (Q, g) → C Q := by
  constructor
  · intro h j Q g hj hQ
    exact h (Q, g) (List.mem_of_getElem? ((List.getElem?_take_of_lt hj).trans hQ))
  · rintro h ⟨Q, g⟩ hr
    obtain ⟨j, hQ⟩ := List.mem_iff_getElem?.mp hr
    rw [List.getElem?_take] at hQ
    split at hQ
    case isTrue hj => exact h j Q g hj hQ
    case isFalse => cases hQ

/-- Settles O6: the order of the rows is read off the table, and the two answers are
`firstMatch_eq_ok_iff` and `firstMatch_eq_unclassified_iff` with the rows named by position. -/
theorem classifyTakesFirstMatchingRow : Obligations.ClassifyTakesFirstMatchingRow := by
  refine ⟨rfl, fun w => ⟨fun f => ?_, ?_⟩⟩
  · rw [classify, firstMatch_eq_ok_iff]
    simp only [forall_mem_take_iff (C := fun Q => Q w = false)]
  · rw [classify, firstMatch_eq_unclassified_iff]
    simp only [List.mem_iff_getElem?, Prod.forall, forall_exists_index]
    exact ⟨fun h k P f => h P f k, fun h P f k => h k P f⟩

/-- No two rows have the same format, so the row of a format is known: it decides exactly when it holds
and every earlier row fails. -/
theorem classify_eq_ok_iff_of_row {n : Nat} {P : Word → Bool} {f : InstructionFormat}
    (hn : predicateTable[n]? = some (P, f)) (w : Word) :
    classify w = .ok f ↔ P w = true ∧ ∀ r ∈ predicateTable.take n, r.1 w = false := by
  rw [classify, firstMatch_eq_ok_iff]
  constructor
  · rintro ⟨k, Q, hk, hQ, hearlier⟩
    have hkn : k = n := by
      have hnodup : (predicateTable.map Prod.snd).Nodup := by decide
      have hlt : k < (predicateTable.map Prod.snd).length := by
        rw [List.length_map]
        exact (List.getElem?_eq_some_iff.mp hk).1
      apply (List.getElem?_inj hlt hnodup).mp
      rw [List.getElem?_map, List.getElem?_map, hk, hn, Option.map_some, Option.map_some]
    subst hkn
    cases hk.symm.trans hn
    exact ⟨hQ, hearlier⟩
  · rintro ⟨hP, hearlier⟩
    exact ⟨n, P, hn, hP, hearlier⟩

/-- Once the first `n` rows fail, the later ones decide. -/
theorem classify_eq_firstMatch_drop {w : Word} (n : Nat)
    (h : ∀ r ∈ predicateTable.take n, r.1 w = false) :
    classify w = firstMatch w (predicateTable.drop n) := by
  rw [← firstMatch_append_of_all_fail h, List.take_append_drop, classify]

/-! ## Bit ranges -/

/-- A range tested against a number of its width is the slice tested against that bit vector. -/
theorem extract_beq_iff (w : Word) (lsb msb : Nat) (h : ExtractDomain lsb msb)
    (v : BitVec (msb - lsb + 1)) :
    (extract w lsb msb h == v.toNat) = true ↔ w.extractLsb' lsb (msb - lsb + 1) = v := by
  rw [beq_iff_eq, extract_eq_extractLsb', BitVec.toNat_inj]

theorem extract_self_beq_one (w : Word) (i : Nat) (h : ExtractDomain i i) :
    (extract w i i h == 1) = true ↔ w.getLsbD i = true :=
  beq_iff_eq.trans (extract_self_eq_one w i h)

theorem extract_self_beq_zero (w : Word) (i : Nat) (h : ExtractDomain i i) :
    (extract w i i h == 0) = true ↔ w.getLsbD i = false :=
  beq_iff_eq.trans (extract_self_eq_zero w i h)

/-- A bit of a slice that is known. -/
theorem getLsbD_of_slice {w : Word} {i n : Nat} {v : BitVec n} (h : w.extractLsb' i n = v) (k : Nat)
    (hk : k < n := by decide) : w.getLsbD (i + k) = v.getLsbD k := by
  rw [← h, BitVec.getLsbD_extractLsb', decide_eq_true hk, Bool.true_and]

/-- A part of a slice that is known. -/
theorem subslice_of_slice {w : Word} {i n : Nat} {v : BitVec n} (h : w.extractLsb' i n = v) (k m : Nat)
    (hk : k + m ≤ n := by decide) : w.extractLsb' (i + k) m = v.extractLsb' k m := by
  apply BitVec.eq_of_getLsbD_eq
  intro j hj
  rw [BitVec.getLsbD_extractLsb', BitVec.getLsbD_extractLsb',
    ← getLsbD_of_slice h (k + j) (by omega), Nat.add_assoc]

/-- Three tests, grouped as the rules list them. -/
theorem and_and_eq_true_iff (a b c : Bool) :
    (a && b && c) = true ↔ a = true ∧ b = true ∧ c = true := by
  rw [Bool.and_eq_true, Bool.and_eq_true, and_assoc]

/-! ## The sixteen predicates as slices -/

section
variable (w : Word)

theorem isMultiply_iff : isMultiply w = true ↔
    w.extractLsb' 22 6 = 0#6 ∧ w.extractLsb' 4 4 = 0b1001#4 :=
  Bool.and_eq_true_iff.trans (and_congr (extract_beq_iff w 22 27 _ 0#6)
    (extract_beq_iff w 4 7 _ 0b1001#4))

theorem isMultiplyLong_iff : isMultiplyLong w = true ↔
    w.extractLsb' 23 5 = 1#5 ∧ w.extractLsb' 4 4 = 0b1001#4 :=
  Bool.and_eq_true_iff.trans (and_congr (extract_beq_iff w 23 27 _ 1#5)
    (extract_beq_iff w 4 7 _ 0b1001#4))

theorem isBranchAndExchange_iff : isBranchAndExchange w = true ↔ w.extractLsb' 4 24 = 0x12FFF1#24 :=
  extract_beq_iff w 4 27 _ 0x12FFF1#24

theorem isSingleDataSwap_iff : isSingleDataSwap w = true ↔
    w.extractLsb' 23 5 = 0b00010#5 ∧ w.extractLsb' 20 2 = 0#2 ∧ w.extractLsb' 4 8 = 0b00001001#8 :=
  (and_and_eq_true_iff _ _ _).trans (and_congr (extract_beq_iff w 23 27 _ 0b00010#5)
    (and_congr (extract_beq_iff w 20 21 _ 0#2) (extract_beq_iff w 4 11 _ 0b00001001#8)))

theorem isHalfwordDataTransferReg_iff : isHalfwordDataTransferReg w = true ↔
    w.extractLsb' 25 3 = 0#3 ∧ w.getLsbD 22 = false ∧ w.extractLsb' 4 8 = 0b00001011#8 :=
  (and_and_eq_true_iff _ _ _).trans (and_congr (extract_beq_iff w 25 27 _ 0#3)
    (and_congr (extract_self_beq_zero w 22 _) (extract_beq_iff w 4 11 _ 0b00001011#8)))

theorem isHalfwordDataTransferImm_iff : isHalfwordDataTransferImm w = true ↔
    w.extractLsb' 25 3 = 0#3 ∧ w.getLsbD 22 = true ∧ w.extractLsb' 4 4 = 0b1011#4 :=
  (and_and_eq_true_iff _ _ _).trans (and_congr (extract_beq_iff w 25 27 _ 0#3)
    (and_congr (extract_self_beq_one w 22 _) (extract_beq_iff w 4 7 _ 0b1011#4)))

theorem isSignedDataTransfer_iff : isSignedDataTransfer w = true ↔
    w.extractLsb' 25 3 = 0#3 ∧ w.extractLsb' 6 2 = 0b11#2 ∧ w.getLsbD 4 = true :=
  (and_and_eq_true_iff _ _ _).trans (and_congr (extract_beq_iff w 25 27 _ 0#3)
    (and_congr (extract_beq_iff w 6 7 _ 0b11#2) (extract_self_beq_one w 4 _)))

theorem isDataProcessingPsr_iff : isDataProcessingPsr w = true ↔ w.extractLsb' 26 2 = 0#2 :=
  extract_beq_iff w 26 27 _ 0#2

theorem isLoadStore_iff : isLoadStore w = true ↔ w.extractLsb' 26 2 = 0b01#2 :=
  extract_beq_iff w 26 27 _ 0b01#2

theorem isUndefined_iff : isUndefined w = true ↔
    w.extractLsb' 25 3 = 0b011#3 ∧ w.getLsbD 4 = true :=
  Bool.and_eq_true_iff.trans (and_congr (extract_beq_iff w 25 27 _ 0b011#3)
    (extract_self_beq_one w 4 _))

theorem isBlockDataTransfer_iff : isBlockDataTransfer w = true ↔
    w.extractLsb' 25 3 = 0b100#3 ∧ w.getLsbD 22 = false :=
  Bool.and_eq_true_iff.trans (and_congr (extract_beq_iff w 25 27 _ 0b100#3)
    (extract_self_beq_zero w 22 _))

theorem isBranch_iff : isBranch w = true ↔ w.extractLsb' 25 3 = 0b101#3 :=
  extract_beq_iff w 25 27 _ 0b101#3

theorem isCoprocDataTransfer_iff : isCoprocDataTransfer w = true ↔ w.extractLsb' 25 3 = 0b110#3 :=
  extract_beq_iff w 25 27 _ 0b110#3

theorem isCoprocDataOp_iff : isCoprocDataOp w = true ↔
    w.extractLsb' 24 4 = 0b1110#4 ∧ w.getLsbD 4 = false :=
  Bool.and_eq_true_iff.trans (and_congr (extract_beq_iff w 24 27 _ 0b1110#4)
    (extract_self_beq_zero w 4 _))

theorem isCoprocRegTransfer_iff : isCoprocRegTransfer w = true ↔
    w.extractLsb' 24 4 = 0b1110#4 ∧ w.getLsbD 4 = true :=
  Bool.and_eq_true_iff.trans (and_congr (extract_beq_iff w 24 27 _ 0b1110#4)
    (extract_self_beq_one w 4 _))

theorem isSoftwareInterrupt_iff : isSoftwareInterrupt w = true ↔ w.extractLsb' 24 4 = 0b1111#4 :=
  extract_beq_iff w 24 27 _ 0b1111#4

end

/-! ## Rows 1 to 7 against row 8 -/

/-- What has to be shown for a property of each of the rows 1 to 7. -/
theorem forall_mem_rows_one_to_seven {C : (Word → Bool) → Prop} :
    (∀ r ∈ predicateTable.take 7, C r.1) ↔
      C isMultiply ∧ C isMultiplyLong ∧ C isBranchAndExchange ∧ C isSingleDataSwap
        ∧ C isHalfwordDataTransferReg ∧ C isHalfwordDataTransferImm ∧ C isSignedDataTransfer := by
  simp [predicateTable]

/-- Rows 1 to 7 hold only where bits 27:25 are clear (`41_format_classifier.md` R72). -/
theorem bits27_25_of_rows_one_to_seven {w : Word} :
    ∀ r ∈ predicateTable.take 7, r.1 w = true → w.extractLsb' 25 3 = 0#3 := by
  refine forall_mem_rows_one_to_seven (C := fun P => P w = true → _).mpr
    ⟨fun h => ?_, fun h => ?_, fun h => ?_, fun h => ?_, fun h => ?_, fun h => ?_, fun h => ?_⟩
  · exact subslice_of_slice ((isMultiply_iff w).mp h).1 3 3
  · exact subslice_of_slice ((isMultiplyLong_iff w).mp h).1 2 3
  · exact subslice_of_slice ((isBranchAndExchange_iff w).mp h) 21 3
  · exact subslice_of_slice ((isSingleDataSwap_iff w).mp h).1 2 3
  · exact ((isHalfwordDataTransferReg_iff w).mp h).1
  · exact ((isHalfwordDataTransferImm_iff w).mp h).1
  · exact ((isSignedDataTransfer_iff w).mp h).1

/-- Where one of bits 27:25 is set, rows 1 to 7 fail. -/
theorem rows_one_to_seven_fail {w : Word} (h : w.extractLsb' 25 3 ≠ 0#3) :
    ∀ r ∈ predicateTable.take 7, r.1 w = false :=
  fun r hr => Bool.eq_false_iff.mpr fun hrow => h (bits27_25_of_rows_one_to_seven r hr hrow)

/-- The exact case of row 8 (`41_format_classifier.md` R80): its bits and the rows before it. -/
theorem classify_eq_dataProcessingPsr_iff (w : Word) : classify w = .ok .dataProcessingPsr ↔
    w.extractLsb' 26 2 = 0#2 ∧ ∀ r ∈ predicateTable.take 7, r.1 w = false := by
  rw [classify_eq_ok_iff_of_row (n := 7) (P := isDataProcessingPsr) rfl, isDataProcessingPsr_iff]

/-- The multiply pattern with bits 27:23 clear and bit 22 set meets none of the rows 1 to 7: each needs one
of bits 24, 23, 22, 6 and 5 the other way (`41_format_classifier.md` R73). -/
theorem rows_one_to_seven_fail_of_bit22 {w : Word} (htop : w.extractLsb' 23 5 = 0#5)
    (hbit : w.getLsbD 22 = true) (hlow : w.extractLsb' 4 4 = 0b1001#4) :
    ∀ r ∈ predicateTable.take 7, r.1 w = false := by
  have h23 : w.getLsbD 23 = false := getLsbD_of_slice htop 0
  have h24 : w.getLsbD 24 = false := getLsbD_of_slice htop 1
  have h5 : w.getLsbD 5 = false := getLsbD_of_slice hlow 1
  have h6 : w.getLsbD 6 = false := getLsbD_of_slice hlow 2
  refine (forall_mem_rows_one_to_seven (C := fun P => P w = false)).mpr
    ⟨?_, ?_, ?_, ?_, ?_, ?_, ?_⟩ <;> refine Bool.eq_false_iff.mpr fun h => ?_
  · exact Bool.eq_false_iff.mp (getLsbD_of_slice ((isMultiply_iff w).mp h).1 0) hbit
  · exact Bool.eq_false_iff.mp h23 (getLsbD_of_slice ((isMultiplyLong_iff w).mp h).1 0)
  · exact Bool.eq_false_iff.mp h24 (getLsbD_of_slice ((isBranchAndExchange_iff w).mp h) 20)
  · exact Bool.eq_false_iff.mp h24 (getLsbD_of_slice ((isSingleDataSwap_iff w).mp h).1 1)
  · obtain ⟨-, -, hlow'⟩ := (isHalfwordDataTransferReg_iff w).mp h
    exact Bool.eq_false_iff.mp h5 (getLsbD_of_slice hlow' 1)
  · obtain ⟨-, -, hlow'⟩ := (isHalfwordDataTransferImm_iff w).mp h
    exact Bool.eq_false_iff.mp h5 (getLsbD_of_slice hlow' 1)
  · obtain ⟨-, h76, -⟩ := (isSignedDataTransfer_iff w).mp h
    exact Bool.eq_false_iff.mp h6 (getLsbD_of_slice h76 0)

/-- Row 7 takes the words with bits 27:25 clear, bits 7:6 set and bit 4 set before row 8 does
(`41_format_classifier.md` R79). -/
theorem not_signed_pattern_of_dataProcessingPsr {w : Word} (h : classify w = .ok .dataProcessingPsr)
    (h25 : w.getLsbD 25 = false) : ¬ (w.extractLsb' 6 2 = 0b11#2 ∧ w.getLsbD 4 = true) := by
  rintro ⟨h76, h4⟩
  obtain ⟨htop, hrows⟩ := (classify_eq_dataProcessingPsr_iff w).mp h
  have h2725 : w.extractLsb' 25 3 = 0#3 := by
    have h26 : w.getLsbD 26 = false := getLsbD_of_slice htop 0
    have h27 : w.getLsbD 27 = false := getLsbD_of_slice htop 1
    apply BitVec.eq_of_getLsbD_eq
    intro i hi
    rw [BitVec.getLsbD_extractLsb', decide_eq_true hi, Bool.true_and]
    interval_cases i
    exacts [h25, h26, h27]
  obtain ⟨-, -, -, -, -, -, hsigned⟩ :=
    (forall_mem_rows_one_to_seven (C := fun P => P w = false)).mp hrows
  exact Bool.eq_false_iff.mp hsigned ((isSignedDataTransfer_iff w).mpr ⟨h2725, h76, h4⟩)

/-- Settles O7: the predicates are the `_iff` lemmas, the corner cases are about rows 1 to 7 against row 8,
and the examples are evaluated. -/
theorem predicatesOfRowsOneToEight : Obligations.PredicatesOfRowsOneToEight := by
  refine ⟨fun w => ⟨isMultiply_iff w, isMultiplyLong_iff w, isBranchAndExchange_iff w,
    isSingleDataSwap_iff w, isHalfwordDataTransferReg_iff w, isHalfwordDataTransferImm_iff w,
    isSignedDataTransfer_iff w, isDataProcessingPsr_iff w, fun htop hbit hlow => ?_,
    fun htop h25 => ?_, fun htop hrows => (classify_eq_dataProcessingPsr_iff w).mpr ⟨htop, hrows⟩,
    not_signed_pattern_of_dataProcessingPsr⟩, by decide⟩
  · exact (classify_eq_dataProcessingPsr_iff w).mpr
      ⟨subslice_of_slice htop 3 2, rows_one_to_seven_fail_of_bit22 htop hbit hlow⟩
  · refine (classify_eq_dataProcessingPsr_iff w).mpr ⟨htop, rows_one_to_seven_fail fun h => ?_⟩
    exact Bool.eq_false_iff.mp (getLsbD_of_slice h 0) h25

/-! ## Rows 9 to 16 -/

/-- Where bit 27 or bit 26 is set, rows 1 to 8 fail and the other eight decide. -/
theorem classify_of_bits27_26_ne_zero {w : Word} (h : w.extractLsb' 26 2 ≠ 0#2) :
    classify w = firstMatch w (predicateTable.drop 8) := by
  apply classify_eq_firstMatch_drop 8
  have hsplit : predicateTable.take 8
      = predicateTable.take 7 ++ [(isDataProcessingPsr, .dataProcessingPsr)] := rfl
  rw [hsplit, List.forall_mem_append, List.forall_mem_singleton]
  exact ⟨rows_one_to_seven_fail fun h3 => h (subslice_of_slice h3 1 2),
    Bool.eq_false_iff.mpr fun h8 => h ((isDataProcessingPsr_iff w).mp h8)⟩

/-- Row 9 takes every word with bits 27:26 = 01 (`41_format_classifier.md` R81). -/
theorem classify_of_bits27_26_eq_one {w : Word} (h : w.extractLsb' 26 2 = 0b01#2) :
    classify w = .ok .loadStore := by
  rw [classify_of_bits27_26_ne_zero (by simp [h])]
  exact if_pos ((isLoadStore_iff w).mpr h)

/-- The hole (`41_format_classifier.md` R83): row 11 alone has bits 27:25 = 100, and it needs bit 22
clear. -/
theorem classify_of_hole {w : Word} (h : w.extractLsb' 25 3 = 0b100#3) (h22 : w.getLsbD 22 = true) :
    classify w = .err (.unclassifiedInstruction w) := by
  have h2726 : w.extractLsb' 26 2 = 0b10#2 := subslice_of_slice h 1 2
  have h2724 (v : BitVec 4) (hv : v.extractLsb' 1 3 ≠ 0b100#3) : w.extractLsb' 24 4 ≠ v :=
    fun hw => hv ((subslice_of_slice hw 1 3).symm.trans h)
  rw [classify_of_bits27_26_ne_zero (by simp [h2726])]
  simp [predicateTable, firstMatch, isLoadStore_iff, isUndefined_iff, isBlockDataTransfer_iff,
    isBranch_iff, isCoprocDataTransfer_iff, isCoprocDataOp_iff, isCoprocRegTransfer_iff,
    isSoftwareInterrupt_iff, h, h22, h2726, h2724]

/-- Row 12 takes every word with bits 27:25 = 101, whatever its bit 24 (`41_format_classifier.md` R84). -/
theorem classify_of_bits27_25_eq_five {w : Word} (h : w.extractLsb' 25 3 = 0b101#3) :
    classify w = .ok .branch := by
  have h2726 : w.extractLsb' 26 2 = 0b10#2 := subslice_of_slice h 1 2
  rw [classify_of_bits27_26_ne_zero (by simp [h2726])]
  simp [predicateTable, firstMatch, isLoadStore_iff, isUndefined_iff, isBlockDataTransfer_iff,
    isBranch_iff, h, h2726]

/-- Settles O8: the predicates are the `_iff` lemmas, the three regions are the lemmas above, and the
examples are evaluated. -/
theorem predicatesOfRowsNineToSixteen : Obligations.PredicatesOfRowsNineToSixteen :=
  ⟨fun w => ⟨isLoadStore_iff w, isUndefined_iff w, isBlockDataTransfer_iff w, isBranch_iff w,
    isCoprocDataTransfer_iff w, isCoprocDataOp_iff w, isCoprocRegTransfer_iff w,
    isSoftwareInterrupt_iff w, classify_of_bits27_26_eq_one, classify_of_hole,
    classify_of_bits27_25_eq_five⟩, by decide⟩

end Sys2Proof.Machine
end

section
/-! PROOFS. The Condition Decoder: the sixteen names and the bits they depend on
(`42_condition_decoder.md` R100 to R116). -/

namespace Sys2Proof

/-- No two field values share a name: `ConditionCode.bits` reads the value back. -/
theorem condName_injective : Function.Injective condName :=
  Function.LeftInverse.injective bits_condName

/-- The name of a field value, by the value that the name stands for. -/
theorem condName_eq_iff {v : BitVec 4} {c : ConditionCode} : condName v = c ↔ v = c.bits := by
  rw [← condName_injective.eq_iff, condName_bits]

end Sys2Proof

namespace Sys2Proof.Machine

/-- The decoder looks up the slice of bits 31:28. -/
theorem condition_eq_condName (w : Word) : condition w = condName (w.extractLsb' 28 4) :=
  congrArg condName (ofNat_extract w 28 31 (by decide))

/-- A word has the condition `c` exactly when its bits 31:28 are the value of `c`. -/
theorem condition_eq_iff (w : Word) (c : ConditionCode) :
    condition w = c ↔ w.extractLsb' 28 4 = c.bits := by
  rw [condition_eq_condName, condName_eq_iff]

/-- Bits 31:28 decide the condition, and the condition decides them. -/
theorem condition_eq_condition_iff (w v : Word) :
    condition w = condition v ↔ w.extractLsb' 28 4 = v.extractLsb' 28 4 := by
  rw [condition_eq_condName, condition_eq_condName, condName_injective.eq_iff]

/-- Settles O5: each of the sixteen values is `condition_eq_iff` at its name, the dependence on bits 31:28
is `condition_eq_condition_iff`, and the rule's two examples are evaluated. -/
theorem conditionNamesEachNibble : Obligations.ConditionNamesEachNibble := by
  refine ⟨fun w => ?_, condition_eq_condition_iff, by decide, by decide⟩
  have named (c : ConditionCode) : w.extractLsb' 28 4 = c.bits → condition w = c :=
    (condition_eq_iff w c).mpr
  exact ⟨named .EQ, named .NE, named .CS, named .CC, named .MI, named .PL, named .VS, named .VC,
    named .HI, named .LS, named .GE, named .LT, named .GT, named .LE, named .AL, named .NV⟩

end Sys2Proof.Machine
end

section
/-! PROOFS. The Instruction Facade: the register indices and the two operand2 forms as slices of the word
(`43_instruction_facade.md` R124 to R127). -/

namespace Sys2Proof.Machine

variable (w : Word)

theorem rn_eq_extractLsb' : rn w = w.extractLsb' 16 4 :=
  ofNat_extract w 16 19 (by decide)

theorem rd_eq_extractLsb' : rd w = w.extractLsb' 12 4 :=
  ofNat_extract w 12 15 (by decide)

/-- Bits 11:4 as one byte, and the register in bits 3:0. -/
theorem shiftRegisterForm_eq_extractLsb' :
    shiftRegisterForm w = (w.extractLsb' 4 8, w.extractLsb' 0 4) :=
  Prod.ext (ofNat_extract w 4 11 (by decide)) (ofNat_extract w 0 3 (by decide))

/-- The count in bits 11:8, and the value in bits 7:0. -/
theorem rotateImmediateForm_eq_extractLsb' :
    rotateImmediateForm w = (w.extractLsb' 8 4, w.extractLsb' 0 8) :=
  Prod.ext (ofNat_extract w 8 11 (by decide)) (ofNat_extract w 0 7 (by decide))

/-- Settles O17: the four ranges are the lemmas above, and the rules' examples are evaluated. -/
theorem facadeReadsItsBitRanges : Obligations.FacadeReadsItsBitRanges :=
  ⟨fun w => ⟨rn_eq_extractLsb' w, rd_eq_extractLsb' w, shiftRegisterForm_eq_extractLsb' w,
    rotateImmediateForm_eq_extractLsb' w⟩, by decide⟩

end Sys2Proof.Machine
end

section
/-! PROOFS. The shared check of the decoders and the errors of four of them
(`44_data_processing_decoder.md` R163, `45_load_store_decoder.md` R177, `46_branch_decoders.md` R184,
`47_multiply_long_decoder.md` R197). -/

namespace Sys2Proof.Machine

section
variable {α : Type} {e f : InstructionFormat} {r : Result InstructionFormat} {a : α}

/-- A word of another format is answered with both formats, whatever the record. -/
theorem requireFormat_of_mismatch (hr : r = .ok f) (hf : f ≠ e) :
    requireFormat e r a = .err (.formatMismatch e f) :=
  requireFormat_err.mpr (.inr ⟨f, hr, hf, rfl⟩)

/-- An error of `classify` is passed on, whatever the record (`60_exceptions.md` R203). -/
theorem requireFormat_of_err {x : DecodeError} (hr : r = .err x) : requireFormat e r a = .err x :=
  requireFormat_err.mpr (.inl hr)

end

theorem coarseRaw_eq_extractLsb' (w : Word) : coarseRaw w = w.extractLsb' 26 2 :=
  ofNat_extract w 26 27 (by decide)

/-- The words of `Branch`, of `BlockDataTransfer` and of the hole have bits 27:26 = 10 (R184's note):
row 12 needs bits 27:25 = 101, row 11 and the hole need 100. -/
theorem bits27_26_of_branch_or_block_or_hole {w : Word}
    (h : classify w = .ok .branch ∨ classify w = .ok .blockDataTransfer
      ∨ (w.extractLsb' 25 3 = 0b100#3 ∧ w.getLsbD 22 = true)) :
    w.extractLsb' 26 2 = 0b10#2 := by
  obtain hbranch | hblock | ⟨hhole, -⟩ := h
  · obtain ⟨hrow, -⟩ := (classify_eq_ok_iff_of_row (n := 11) (P := isBranch) rfl w).mp hbranch
    exact subslice_of_slice ((isBranch_iff w).mp hrow) 1 2
  · obtain ⟨hrow, -⟩ :=
      (classify_eq_ok_iff_of_row (n := 10) (P := isBlockDataTransfer) rfl w).mp hblock
    exact subslice_of_slice ((isBlockDataTransfer_iff w).mp hrow).1 1 2
  · exact subslice_of_slice hhole 1 2

/-- Settles O23: both errors are the shared check's, on the hole by `classify_of_hole`; the coarse value
is `bits27_26_of_branch_or_block_or_hole`, and the rules' examples are evaluated. -/
theorem decodersReportTheirErrors : Obligations.DecodersReportTheirErrors := by
  refine ⟨fun w f hf => ?mismatch, fun w htop h22 => ?hole, by decide, by decide, by decide, by decide,
    by decide, by decide, by decide, by decide, by decide, by decide, by decide, by decide,
    fun w h => ?coarse, by decide⟩
  case mismatch =>
    exact ⟨requireFormat_of_mismatch hf, requireFormat_of_mismatch hf,
      requireFormat_of_mismatch hf, requireFormat_of_mismatch hf⟩
  case coarse =>
    have h2726 := bits27_26_of_branch_or_block_or_hole h
    exact ⟨h2726, (coarseRaw_eq_extractLsb' w).trans h2726⟩
  case hole =>
    have herr := classify_of_hole htop h22
    exact ⟨requireFormat_of_err herr, requireFormat_of_err herr, requireFormat_of_err herr,
      requireFormat_of_err herr⟩

end Sys2Proof.Machine
end

section
/-! PROOFS. The Data-Processing Decoder: its record as slices of the word, and the sixteen opcode names
(`44_data_processing_decoder.md` R141 to R159). -/

namespace Sys2Proof

/-- The name of a field value, by the value that the name stands for. -/
theorem dpOpcodeName_eq_iff {v : BitVec 4} {op : DpOpcode} : dpOpcodeName v = op ↔ v = op.bits := by
  constructor
  · rintro rfl; exact (bits_dpOpcodeName v).symm
  · rintro rfl; exact dpOpcodeName_bits op

end Sys2Proof

namespace Sys2Proof.Machine

section
variable {w : Word}

/-! ## Operand2: bit 25 first, then bit 4 -/

theorem shiftField_raw (w : Word) : (shiftField w).raw = w.extractLsb' 5 2 :=
  ofNat_extract w 5 6 (by decide)

theorem decodeOperand2_of_bit25 (h25 : w.getLsbD 25 = true) :
    decodeOperand2 w = .immediateRotate (w.extractLsb' 8 4) (w.extractLsb' 0 8) := by
  rw [decodeOperand2, if_pos ((extract_self_eq_one w 25 _).mpr h25)]
  exact congrArg₂ _ (ofNat_extract w 8 11 (by decide)) (ofNat_extract w 0 7 (by decide))

/-- The two register shapes: bit 4 chooses between them, and both read the same ranges. -/
theorem decodeOperand2_of_not_bit25 (h25 : w.getLsbD 25 = false) :
    decodeOperand2 w = if w.getLsbD 4 then .shiftRegisterIndirect (w.extractLsb' 7 5) (shiftField w)
      else .shiftRegisterDirect (w.extractLsb' 7 5) (shiftField w) := by
  have hcount : BitVec.ofNat 5 (extract w 7 11) = w.extractLsb' 7 5 :=
    ofNat_extract w 7 11 (by decide)
  rw [decodeOperand2, if_neg ((extract_self_eq_one w 25 _).not.mpr (Bool.eq_false_iff.mp h25)), hcount]
  cases h4 : w.getLsbD 4 with
  | false => exact if_pos ((extract_self_eq_zero w 4 _).mpr h4)
  | true => exact if_neg ((extract_self_eq_zero w 4 _).not.mpr (Bool.ne_false_iff.mpr h4))

/-! ## The record -/

/-- Exactly on the words of its format the decoder answers a record, and it is this one (R141). -/
theorem decodeDataProcessing_eq_ok_iff {r : DataProcessingInstruction} :
    decodeDataProcessing w = .ok r ↔ classify w = .ok .dataProcessingPsr ∧
      { condition := condition w
        opcode := dpOpcodeName (w.extractLsb' 21 4)
        rd := w.extractLsb' 12 4
        rn := w.extractLsb' 16 4
        operand2 := decodeOperand2 w
        setFlags := w.getLsbD 20 } = r := by
  have hop : BitVec.ofNat 4 (extract w 21 24) = w.extractLsb' 21 4 :=
    ofNat_extract w 21 24 (by decide)
  rw [decodeDataProcessing, requireFormat_ok, hop, rd_eq_extractLsb', rn_eq_extractLsb', setFlagsBit,
    bit_eq_getLsbD]

/-- The opcode of a record is `op` exactly when bits 24:21 are the value of `op` (R143). -/
theorem decodeDataProcessing_opcode_eq_iff {r : DataProcessingInstruction}
    (h : decodeDataProcessing w = .ok r) (op : DpOpcode) :
    r.opcode = op ↔ w.extractLsb' 21 4 = op.bits := by
  obtain ⟨-, rfl⟩ := decodeDataProcessing_eq_ok_iff.mp h
  exact dpOpcodeName_eq_iff

end

/-- Settles O25: the record is that of `decodeDataProcessing_eq_ok_iff` with its operand2 read case by
case, and the examples are evaluated. -/
theorem dataProcessingFieldsAreRawRanges : Obligations.DataProcessingFieldsAreRawRanges := by
  refine ⟨fun w hw => ⟨_, decodeDataProcessing_eq_ok_iff.mpr ⟨hw, rfl⟩, rfl, rfl, rfl, rfl, rfl,
    decodeOperand2_of_bit25, fun h25 h4 => ⟨shiftField w, shiftField_raw w, ?direct⟩,
    fun h25 h4 => ⟨shiftField w, shiftField_raw w, ?indirect⟩⟩, by decide, by decide, ?examples⟩
  case direct => exact (decodeOperand2_of_not_bit25 h25).trans (if_neg (Bool.eq_false_iff.mp h4))
  case indirect => exact (decodeOperand2_of_not_bit25 h25).trans (if_pos h4)
  case examples =>
    exact ⟨⟨⟨0, .logicalLeft⟩, by decide⟩, ⟨⟨3, .arithmeticRight⟩, by decide⟩,
      ⟨⟨0, .logicalLeft⟩, by decide⟩,
      ⟨⟨.AL, .ADD, 2, 1, .shiftRegisterDirect 0 ⟨0, .logicalLeft⟩, true⟩, by decide⟩⟩

/-- Settles O26: each value is `decodeDataProcessing_opcode_eq_iff` at its name, and the eight examples
are evaluated. -/
theorem opcodeNamesZeroToSeven : Obligations.OpcodeNamesZeroToSeven := by
  refine ⟨fun w r h => ?_, by decide⟩
  have named (op : DpOpcode) := (decodeDataProcessing_opcode_eq_iff h op).mpr
  exact ⟨named .AND, named .EOR, named .SUB, named .RSB, named .ADD, named .ADC, named .SBC,
    named .RSC⟩

/-- Settles O27: each value is `decodeDataProcessing_opcode_eq_iff` at its name, and the eight examples
are evaluated. -/
theorem opcodeNamesEightToFifteen : Obligations.OpcodeNamesEightToFifteen := by
  refine ⟨fun w r h => ?_, by decide⟩
  have named (op : DpOpcode) := (decodeDataProcessing_opcode_eq_iff h op).mpr
  exact ⟨named .TST, named .TEQ, named .CMP, named .CMN, named .ORR, named .MOV, named .BIC,
    named .MVN⟩

end Sys2Proof.Machine
end

section
/-! PROOFS. The Load/Store Decoder: its record as slices of the word, and the two offset shapes
(`45_load_store_decoder.md` R171 to R174). -/

namespace Sys2Proof.Machine

section
variable {w : Word}

/-! ## Offset: bit 25 alone, in the sense opposite to operand2 -/

theorem decodeOffset_of_bit25 (h25 : w.getLsbD 25 = true) :
    decodeOffset w = .shiftOffset (w.extractLsb' 7 5) (shiftField w) (w.extractLsb' 0 4) := by
  have hcount : BitVec.ofNat 5 (extract w 7 11) = w.extractLsb' 7 5 :=
    ofNat_extract w 7 11 (by decide)
  have hreg : BitVec.ofNat 4 (extract w 0 3) = w.extractLsb' 0 4 :=
    ofNat_extract w 0 3 (by decide)
  rw [decodeOffset, if_pos ((extract_self_eq_one w 25 _).mpr h25), hcount, hreg]

theorem decodeOffset_of_not_bit25 (h25 : w.getLsbD 25 = false) :
    decodeOffset w = .immOffset (w.extractLsb' 0 12) := by
  rw [decodeOffset, if_neg ((extract_self_eq_one w 25 _).not.mpr (Bool.eq_false_iff.mp h25))]
  exact congrArg _ (ofNat_extract w 0 11 (by decide))

/-! ## The record -/

/-- Exactly on the words of its format the decoder answers a record, and it is this one (R171 to R174). -/
theorem decodeLoadStore_eq_ok_iff {r : LoadStoreInstruction} :
    decodeLoadStore w = .ok r ↔ classify w = .ok .loadStore ∧
      { condition := condition w
        opcode := lsOpcodeName (w.getLsbD 20)
        rd := w.extractLsb' 12 4
        rn := w.extractLsb' 16 4
        writeback := w.getLsbD 21
        byteWord := w.getLsbD 22
        upDown := w.getLsbD 23
        prePost := w.getLsbD 24
        offset := decodeOffset w } = r := by
  rw [decodeLoadStore, requireFormat_ok, rd_eq_extractLsb', rn_eq_extractLsb', writeback, byteWord,
    upDown, prePost]
  simp only [bit_eq_getLsbD]

end

/-- Settles O30: the record is that of `decodeLoadStore_eq_ok_iff` with its opcode and its offset read case
by case, and the examples are evaluated. -/
theorem loadStoreFieldsAreRawRanges : Obligations.LoadStoreFieldsAreRawRanges := by
  refine ⟨fun w hw => ⟨_, decodeLoadStore_eq_ok_iff.mpr ⟨hw, rfl⟩, rfl, congrArg lsOpcodeName,
    congrArg lsOpcodeName, rfl, rfl, rfl, rfl, rfl, rfl,
    fun h25 => ⟨shiftField w, shiftField_raw w, decodeOffset_of_bit25 h25⟩,
    decodeOffset_of_not_bit25⟩, by decide, by decide, by decide, by decide, ?loadShift, ?storeShift,
    by decide⟩
  case loadShift => exact ⟨⟨0, .logicalLeft⟩, by decide⟩
  case storeShift => exact ⟨⟨0, .logicalLeft⟩, by decide⟩

end Sys2Proof.Machine
end

section
/-! PROOFS. The Branch Decoder and the Branch-and-Exchange Decoder: their records as slices of the word and
the words they succeed on (`46_branch_decoders.md` R180 to R186). -/

namespace Sys2Proof.Machine

section
variable {w : Word}

/-! ## The two formats as bit ranges -/

theorem classify_eq_branch_iff : classify w = .ok .branch ↔ w.extractLsb' 25 3 = 0b101#3 := by
  constructor
  · intro h
    obtain ⟨hrow, -⟩ := (classify_eq_ok_iff_of_row (n := 11) (P := isBranch) rfl w).mp h
    exact (isBranch_iff w).mp hrow
  · exact classify_of_bits27_25_eq_five

/-- The 24 bits of row 3 decide alone: bits 7:4 are 0001 there, and rows 1 and 2 need 1001
(`41_format_classifier.md` R72). -/
theorem classify_eq_branchAndExchange_iff :
    classify w = .ok .branchAndExchange ↔ w.extractLsb' 4 24 = 0x12FFF1#24 := by
  rw [classify_eq_ok_iff_of_row (n := 2) (P := isBranchAndExchange) rfl, isBranchAndExchange_iff]
  refine and_iff_left_of_imp fun h => ?_
  have h7 : w.getLsbD 7 = false := getLsbD_of_slice h 3
  have htake : predicateTable.take 2
      = [(isMultiply, .multiply), (isMultiplyLong, .multiplyLong)] := rfl
  rw [htake, List.forall_mem_cons, List.forall_mem_singleton]
  constructor <;> refine Bool.eq_false_iff.mpr fun hrow => Bool.eq_false_iff.mp h7 ?_
  · exact getLsbD_of_slice ((isMultiply_iff w).mp hrow).2 3
  · exact getLsbD_of_slice ((isMultiplyLong_iff w).mp hrow).2 3

/-! ## The records -/

/-- The shared check answers a record exactly on the words of the expected format. -/
theorem exists_requireFormat_eq_ok_iff {α : Type} {e : InstructionFormat}
    {r : Result InstructionFormat} {a : α} : (∃ b, requireFormat e r a = .ok b) ↔ r = .ok e := by
  simp only [requireFormat_ok, exists_and_left, exists_eq', and_true]

/-- Exactly on the words of its format the decoder answers a record, and it is this one (R180). -/
theorem decodeBranch_eq_ok_iff {r : BranchInstruction} :
    decodeBranch w = .ok r ↔ classify w = .ok .branch ∧
      { condition := condition w
        link := w.getLsbD 24
        offset := w.extractLsb' 0 24 } = r := by
  have hoffset : BitVec.ofNat 24 (extract w 0 23) = w.extractLsb' 0 24 :=
    ofNat_extract w 0 23 (by decide)
  rw [decodeBranch, requireFormat_ok, hoffset, link, bit_eq_getLsbD]

/-- Exactly on the words of its format the decoder answers a record, and it is this one (R185). -/
theorem decodeBranchExchange_eq_ok_iff {r : BranchExchangeInstruction} :
    decodeBranchExchange w = .ok r ↔ classify w = .ok .branchAndExchange ∧
      { condition := condition w, target := w.extractLsb' 0 4 } = r := by
  have htarget : BitVec.ofNat 4 (extract w 0 3) = w.extractLsb' 0 4 :=
    ofNat_extract w 0 3 (by decide)
  rw [decodeBranchExchange, requireFormat_ok, htarget]

/-! ## The offset as a number -/

/-- A set top bit of the raw field counts as 2 ^ 23, not as a sign (R183). -/
theorem two_pow_le_offset_of_bit23 (h23 : w.getLsbD 23 = true) :
    0x800000 ≤ (w.extractLsb' 0 24).toNat := by
  apply Nat.ge_two_pow_of_testBit (i := 23)
  rw [BitVec.testBit_toNat, BitVec.getLsbD_extractLsb', h23]
  rfl

end

/-- Settles O32: the record is that of `decodeBranch_eq_ok_iff`, the errors are the shared check's, the
success region is `classify_eq_branch_iff`, and the examples are evaluated. -/
theorem branchOffsetIsRaw : Obligations.BranchOffsetIsRaw := by
  refine ⟨fun w hw => ⟨_, decodeBranch_eq_ok_iff.mpr ⟨hw, rfl⟩, rfl, id, id, rfl,
    BitVec.extractLsb'_toNat 0 24 w, two_pow_le_offset_of_bit23⟩, fun f w => requireFormat_of_mismatch,
    fun w v => requireFormat_of_err, fun w => ?region, by decide⟩
  case region => exact exists_requireFormat_eq_ok_iff.trans classify_eq_branch_iff

/-- Settles O33: the record is that of `decodeBranchExchange_eq_ok_iff`, the errors are the shared check's,
the success region is `classify_eq_branchAndExchange_iff`, and the examples are evaluated. -/
theorem branchExchangeReportsTheIndex : Obligations.BranchExchangeReportsTheIndex := by
  refine ⟨fun w hw => decodeBranchExchange_eq_ok_iff.mpr ⟨hw, rfl⟩,
    fun f w => requireFormat_of_mismatch, fun w v => requireFormat_of_err, fun w => ?region,
    by decide⟩
  case region => exact exists_requireFormat_eq_ok_iff.trans classify_eq_branchAndExchange_iff

end Sys2Proof.Machine
end

section
/-! PROOFS. The Multiply-Long Decoder: its record as slices of the word and the words it succeeds on
(`47_multiply_long_decoder.md` R190 to R194). -/

namespace Sys2Proof.Machine

section
variable {w : Word}

/-- Row 2 decides alone: it needs bit 23 set, and row 1 needs it clear (`41_format_classifier.md` R72). -/
theorem classify_eq_multiplyLong_iff : classify w = .ok .multiplyLong ↔
    w.extractLsb' 23 5 = 1#5 ∧ w.extractLsb' 4 4 = 0b1001#4 := by
  rw [classify_eq_ok_iff_of_row (n := 1) (P := isMultiplyLong) rfl, isMultiplyLong_iff]
  refine and_iff_left_of_imp fun ⟨htop, _⟩ => ?_
  have h23 : w.getLsbD 23 = true := getLsbD_of_slice htop 0
  have htake : predicateTable.take 1 = [(isMultiply, .multiply)] := rfl
  rw [htake, List.forall_mem_singleton]
  refine Bool.eq_false_iff.mpr fun hrow => Bool.eq_false_iff.mp ?_ h23
  exact getLsbD_of_slice ((isMultiply_iff w).mp hrow).1 1

/-- The one field of the block that is the complement of its bit (R192). -/
theorem isUnsigned_eq_not_getLsbD (w : Word) : isUnsigned w = !w.getLsbD 22 := by
  rw [Bool.eq_iff_iff, Bool.not_eq_true']
  exact extract_self_beq_zero w 22 _

/-- Exactly on the words of its format the decoder answers a record, and it is this one (R190 to R194). -/
theorem decodeMultiplyLong_eq_ok_iff {r : MultiplyLongInstruction} :
    decodeMultiplyLong w = .ok r ↔ classify w = .ok .multiplyLong ∧
      { condition := condition w
        isUnsigned := !w.getLsbD 22
        accumulate := w.getLsbD 21
        setFlags := w.getLsbD 20
        rdHi := w.extractLsb' 16 4
        rdLo := w.extractLsb' 12 4
        multiplier := w.extractLsb' 8 4
        multiplicand := w.extractLsb' 0 4 } = r := by
  have hrdHi : BitVec.ofNat 4 (extract w 16 19) = w.extractLsb' 16 4 := rn_eq_extractLsb' w
  have hrdLo : BitVec.ofNat 4 (extract w 12 15) = w.extractLsb' 12 4 := rd_eq_extractLsb' w
  have hmultiplier : BitVec.ofNat 4 (extract w 8 11) = w.extractLsb' 8 4 :=
    ofNat_extract w 8 11 (by decide)
  have hmultiplicand : BitVec.ofNat 4 (extract w 0 3) = w.extractLsb' 0 4 :=
    ofNat_extract w 0 3 (by decide)
  rw [decodeMultiplyLong, requireFormat_ok, hrdHi, hrdLo, hmultiplier, hmultiplicand,
    isUnsigned_eq_not_getLsbD, accumulate, setFlagsBit, bit_eq_getLsbD, bit_eq_getLsbD]

end

/-- Settles O35: the record is that of `decodeMultiplyLong_eq_ok_iff`, the errors are the shared check's,
the success region is `classify_eq_multiplyLong_iff`, and the examples are evaluated. -/
theorem multiplyLongFieldsAreRawRanges : Obligations.MultiplyLongFieldsAreRawRanges := by
  refine ⟨fun w hw => ⟨_, decodeMultiplyLong_eq_ok_iff.mpr ⟨hw, rfl⟩, rfl, rfl, rfl, rfl, rfl, rfl,
    rfl, rfl⟩, fun f w => requireFormat_of_mismatch, fun w v => requireFormat_of_err,
    fun w => ?region, by decide⟩
  case region => exact exists_requireFormat_eq_ok_iff.trans classify_eq_multiplyLong_iff

end Sys2Proof.Machine
end

section
/-! PROOFS. The two errors of the block: where each is returned and what it carries
(`60_exceptions.md` R201 to R203). -/

namespace Sys2Proof.Machine

section
variable {w v : Word}

/-! ## What `classify` can answer besides a format -/

/-- The first match fails in one way only, with the word it was given. -/
theorem eq_unclassified_of_firstMatch_eq_err {rows : List ((Word → Bool) × InstructionFormat)}
    {x : DecodeError} (h : firstMatch w rows = .err x) : x = .unclassifiedInstruction w := by
  induction rows with
  | nil => cases h; rfl
  | cons row rows ih =>
    rw [firstMatch] at h
    split at h
    case isTrue => cases h
    case isFalse => exact ih h

theorem classify_ne_formatMismatch (e a : InstructionFormat) :
    classify w ≠ .err (.formatMismatch e a) :=
  fun h => nomatch eq_unclassified_of_firstMatch_eq_err h

/-- The values of bits 27:24, grouped as rows 8 to 16 test them; the group of row 11 is last. -/
theorem bits27_24_cases (w : Word) :
    w.extractLsb' 26 2 = 0#2 ∨ w.extractLsb' 26 2 = 0b01#2 ∨ w.extractLsb' 25 3 = 0b101#3
      ∨ w.extractLsb' 25 3 = 0b110#3 ∨ w.extractLsb' 24 4 = 0b1110#4 ∨ w.extractLsb' 24 4 = 0b1111#4
      ∨ w.extractLsb' 25 3 = 0b100#3 := by
  have h2726 : w.extractLsb' 26 2 = (w.extractLsb' 24 4).extractLsb' 2 2 := subslice_of_slice rfl 2 2
  have h2725 : w.extractLsb' 25 3 = (w.extractLsb' 24 4).extractLsb' 1 3 := subslice_of_slice rfl 1 3
  rw [h2726, h2725]
  generalize w.extractLsb' 24 4 = b
  revert b
  decide

/-- Where no row holds, only the hole is left: each other value of bits 27:24 is a row's, or that of two
rows between which bit 4 chooses (`41_format_classifier.md` R90). -/
theorem hole_of_rows_fail (h : ∀ r ∈ predicateTable, r.1 w = false) :
    w.extractLsb' 25 3 = 0b100#3 ∧ w.getLsbD 22 = true := by
  have fails (n : Nat) {P : Word → Bool} {f : InstructionFormat}
      (hn : predicateTable[n]? = some (P, f)) : ¬ P w = true :=
    Bool.eq_false_iff.mp (h (P, f) (List.mem_of_getElem? hn))
  obtain hdp | hls | hbranch | htransfer | hcoproc | hswi | hblock := bits27_24_cases w
  · exact absurd ((isDataProcessingPsr_iff w).mpr hdp) (fails 7 rfl)
  · exact absurd ((isLoadStore_iff w).mpr hls) (fails 8 rfl)
  · exact absurd ((isBranch_iff w).mpr hbranch) (fails 11 rfl)
  · exact absurd ((isCoprocDataTransfer_iff w).mpr htransfer) (fails 12 rfl)
  · cases h4 : w.getLsbD 4 with
    | false => exact absurd ((isCoprocDataOp_iff w).mpr ⟨hcoproc, h4⟩) (fails 13 rfl)
    | true => exact absurd ((isCoprocRegTransfer_iff w).mpr ⟨hcoproc, h4⟩) (fails 14 rfl)
  · exact absurd ((isSoftwareInterrupt_iff w).mpr hswi) (fails 15 rfl)
  · refine ⟨hblock, Bool.ne_false_iff.mp fun h22 => ?_⟩
    exact fails 10 rfl ((isBlockDataTransfer_iff w).mpr ⟨hblock, h22⟩)

/-- The hole is exactly where `classify` fails, and the payload is the word (R201). -/
theorem classify_eq_unclassified_iff : classify w = .err (.unclassifiedInstruction v) ↔
    (w.extractLsb' 25 3 = 0b100#3 ∧ w.getLsbD 22 = true) ∧ v = w := by
  constructor
  · intro h
    cases eq_unclassified_of_firstMatch_eq_err h
    exact ⟨hole_of_rows_fail (firstMatch_eq_unclassified_iff.mp h), rfl⟩
  · rintro ⟨⟨htop, h22⟩, rfl⟩
    exact classify_of_hole htop h22

/-- The words of row 10 are among those of row 9, which comes first (`41_format_classifier.md` R82). -/
theorem classify_of_isUndefined (h : isUndefined w = true) : classify w = .ok .loadStore :=
  classify_of_bits27_26_eq_one (subslice_of_slice ((isUndefined_iff w).mp h).1 1 2)

theorem classify_ne_undefined : classify w ≠ .ok .undefined := by
  intro h
  obtain ⟨hrow, -⟩ := (classify_eq_ok_iff_of_row (n := 9) (P := isUndefined) rfl w).mp h
  cases h.symm.trans (classify_of_isUndefined hrow)

/-! ## What the shared check can answer besides a record -/

variable {α : Type} {expected : InstructionFormat} {record : α}

/-- The check adds no `UnclassifiedInstruction` and loses none (R203). -/
theorem requireFormat_eq_unclassified_iff {r : Result InstructionFormat} :
    requireFormat expected r record = .err (.unclassifiedInstruction v) ↔
      r = .err (.unclassifiedInstruction v) := by
  rw [requireFormat_err]
  exact or_iff_left fun ⟨_, _, _, hx⟩ => nomatch hx

/-- A mismatch names the decoder's own format and the word's, which is another one and never
`Undefined` (R202). -/
theorem requireFormat_classify_eq_mismatch_iff {e a : InstructionFormat} :
    requireFormat expected (classify w) record = .err (.formatMismatch e a) ↔
      e = expected ∧ classify w = .ok a ∧ a ≠ expected ∧ a ≠ .undefined := by
  rw [requireFormat_err, or_iff_right (classify_ne_formatMismatch e a)]
  constructor
  · rintro ⟨f, hf, hne, hx⟩
    cases hx
    exact ⟨rfl, hf, hne, fun hundef => classify_ne_undefined (hundef ▸ hf)⟩
  · rintro ⟨rfl, ha, hne, -⟩
    exact ⟨a, ha, hne, rfl⟩

end

/-- Settles O21: `classify_eq_unclassified_iff` for `classify`, passed on by the shared check to the five
decoders; the rule's example is evaluated. -/
theorem holeAloneIsUnclassified : Obligations.HoleAloneIsUnclassified := by
  refine ⟨fun w => ⟨fun hhole => ?hole, fun hother v => ?other⟩, by decide⟩
  case hole =>
    have herr := classify_eq_unclassified_iff.mpr ⟨hhole, rfl⟩
    exact ⟨herr, requireFormat_of_err herr, requireFormat_of_err herr, requireFormat_of_err herr,
      requireFormat_of_err herr, requireFormat_of_err herr⟩
  case other =>
    have hne : classify w ≠ .err (.unclassifiedInstruction v) :=
      fun h => hother (classify_eq_unclassified_iff.mp h).1
    have passed_on {α : Type} {e : InstructionFormat} {record : α} :
        requireFormat e (classify w) record ≠ .err (.unclassifiedInstruction v) :=
      requireFormat_eq_unclassified_iff.not.mpr hne
    exact ⟨hne, passed_on, passed_on, passed_on, passed_on, passed_on⟩

/-- Settles O22: each decoder is the shared check on its own format, so the two equivalences of that check
are the clauses; the rule's example is evaluated. -/
theorem mismatchNamesExpectedAndActual : Obligations.MismatchNamesExpectedAndActual :=
  ⟨fun _ e a => ⟨classify_ne_formatMismatch e a, requireFormat_classify_eq_mismatch_iff,
    requireFormat_classify_eq_mismatch_iff, requireFormat_classify_eq_mismatch_iff,
    requireFormat_classify_eq_mismatch_iff, requireFormat_classify_eq_mismatch_iff⟩,
  fun _ _ => ⟨requireFormat_eq_unclassified_iff, requireFormat_eq_unclassified_iff,
    requireFormat_eq_unclassified_iff, requireFormat_eq_unclassified_iff,
    requireFormat_eq_unclassified_iff⟩, by decide⟩

end Sys2Proof.Machine
end

section
/-! PROOFS. What a step delivers follows from the word it presents (`70_reset_and_hazards.md` R231). -/

namespace Sys2Proof.Machine

theorem State.nextWord_eq_some_iff {s : State} {w : Word} : s.nextWord = some w ↔
    s.position < s.count ∧ Memory.wordAt s.bytes s.wordAddress = some w := by
  rw [State.nextWord, Option.ite_none_right_eq_some]

/-- A step answers exactly where a word is presented, and appends outputs that are read from it. -/
theorem step_eq_next_iff {s t : State} : step s = .next t ↔
    ∃ w, s.nextWord = some w
      ∧ t = s.append (blockOutputs Config.coarseMap (encode (decodeWord w))) := by
  constructor
  case mp =>
    intro h
    obtain ⟨w, hleft, hword, ht⟩ := step_next h
    exact ⟨w, State.nextWord_eq_some_iff.mpr ⟨hleft, hword⟩, ht⟩
  case mpr =>
    rintro ⟨w, hnext, rfl⟩
    obtain ⟨hleft, hword⟩ := State.nextWord_eq_some_iff.mp hnext
    obtain ⟨v, -, hv, hstep⟩ | ⟨-, hnone, -⟩ | ⟨hended, -⟩ := step_cases s
    · cases hv.symm.trans hword
      rw [hstep, exec_eq_next]
    · cases hnone.symm.trans hword
    · exact absurd hleft hended

/-- Settles O54: by `step_eq_next_iff` the first step presented a word, which the second state presents too;
both append the outputs read from it. -/
theorem outputDependsOnTheWordAlone : Obligations.OutputDependsOnTheWordAlone := by
  intro s s' t hsame hstep
  obtain ⟨w, hnext, rfl⟩ := step_eq_next_iff.mp hstep
  have hstep' := step_eq_next_iff.mpr ⟨w, hsame ▸ hnext, rfl⟩
  exact ⟨_, _, hstep', State.append_outputs s _, State.append_outputs s' _⟩

end Sys2Proof.Machine
end

section
/-! PROOFS. The rows in mask-and-match form (`30_encoding.md` R42): a field tested under its mask, and each
field predicate as the test of its row's mask and match. -/

namespace Sys2Proof.Machine

/-! ## A field as a mask -/

/-- The mask of the `n` bits from bit `lo` on. -/
def fieldMask (lo n : Nat) : Word := (BitVec.allOnes n).setWidth 32 <<< lo

theorem getLsbD_fieldMask (lo n i : Nat) : (fieldMask lo n).getLsbD i =
    (decide (i < 32) && (decide (lo ≤ i) && decide (i < lo + n))) := by
  rw [fieldMask, BitVec.getLsbD_shiftLeft, BitVec.getLsbD_setWidth, BitVec.getLsbD_allOnes,
    Bool.eq_iff_iff]
  simp
  omega

section
variable {w p : Word}

/-- Two words agree under the mask of a field exactly when they agree on the field. -/
theorem and_fieldMask_eq_iff {lo n : Nat} :
    w &&& fieldMask lo n = p &&& fieldMask lo n ↔ w.extractLsb' lo n = p.extractLsb' lo n := by
  simp only [BitVec.eq_of_getLsbD_eq_iff, BitVec.getLsbD_and, getLsbD_fieldMask,
    BitVec.getLsbD_extractLsb']
  constructor
  · intro heq k hk
    by_cases h32 : lo + k < 32
    · have hbit := heq (lo + k) h32
      simpa [hk, h32] using hbit
    · rw [BitVec.getLsbD_of_ge _ _ (Nat.le_of_not_lt h32),
        BitVec.getLsbD_of_ge _ _ (Nat.le_of_not_lt h32)]
  · intro heq i hi
    by_cases hin : lo ≤ i ∧ i < lo + n
    · have hbit := heq (i - lo) (by omega)
      rw [Nat.add_sub_cancel' hin.1, decide_eq_true (show i - lo < n by omega)] at hbit
      simpa [hin, hi] using hbit
    · have hout : (decide (lo ≤ i) && decide (i < lo + n)) = false := by simpa using hin
      simp only [hout, Bool.and_false]

/-- Two words agree under the mask of one bit exactly when they agree on the bit. -/
theorem and_bitMask_eq_iff {i : Nat} :
    w &&& fieldMask i 1 = p &&& fieldMask i 1 ↔ w.getLsbD i = p.getLsbD i := by
  rw [and_fieldMask_eq_iff, BitVec.eq_of_getLsbD_eq_iff]
  simp

/-- Two words agree under a mask of two parts exactly when they agree under each. -/
theorem and_or_eq_iff {m₁ m₂ : Word} : w &&& (m₁ ||| m₂) = p &&& (m₁ ||| m₂) ↔
    w &&& m₁ = p &&& m₁ ∧ w &&& m₂ = p &&& m₂ := by
  constructor
  · intro h
    have restricted (m : Word) (hm : (m₁ ||| m₂) &&& m = m) : w &&& m = p &&& m := by
      rw [← hm, ← BitVec.and_assoc, h, BitVec.and_assoc]
    exact ⟨restricted m₁ (by ext; simp; grind), restricted m₂ (by ext; simp; grind)⟩
  · rintro ⟨h₁, h₂⟩
    rw [BitVec.and_or_distrib_left, h₁, h₂, ← BitVec.and_or_distrib_left]

/-- A test by mask and match as agreement with the match. -/
theorem and_eq_iff {m : Word} (hp : p &&& m = p) : w &&& m = p ↔ w &&& m = p &&& m := by
  rw [hp]

end

/-! ## The pattern table -/

/-- The mask of each row (`30_encoding.md` R42). -/
def rowMask : InstructionFormat → Word
  | .multiply => 0x0FC000F0
  | .multiplyLong => 0x0F8000F0
  | .branchAndExchange => 0x0FFFFFF0
  | .singleDataSwap => 0x0FB00FF0
  | .halfwordDataTransferReg => 0x0E400FF0
  | .halfwordDataTransferImm => 0x0E4000F0
  | .signedDataTransfer => 0x0E0000D0
  | .dataProcessingPsr => 0x0C000000
  | .loadStore => 0x0C000000
  | .undefined => 0x0E000010
  | .blockDataTransfer => 0x0E400000
  | .branch => 0x0E000000
  | .coprocDataTransfer => 0x0E000000
  | .coprocDataOp => 0x0F000010
  | .coprocRegTransfer => 0x0F000010
  | .softwareInterrupt => 0x0F000000

/-- The match of each row (`30_encoding.md` R42). -/
def rowMatch : InstructionFormat → Word
  | .multiply => 0x00000090
  | .multiplyLong => 0x00800090
  | .branchAndExchange => 0x012FFF10
  | .singleDataSwap => 0x01000090
  | .halfwordDataTransferReg => 0x000000B0
  | .halfwordDataTransferImm => 0x004000B0
  | .signedDataTransfer => 0x000000D0
  | .dataProcessingPsr => 0x00000000
  | .loadStore => 0x04000000
  | .undefined => 0x06000010
  | .blockDataTransfer => 0x08000000
  | .branch => 0x0A000000
  | .coprocDataTransfer => 0x0C000000
  | .coprocDataOp => 0x0E000000
  | .coprocRegTransfer => 0x0E000010
  | .softwareInterrupt => 0x0F000000

section
variable (w : Word)

theorem isMultiply_iff_masked : isMultiply w = true ↔
    w &&& rowMask .multiply = rowMatch .multiply := by
  have hm : rowMask .multiply = fieldMask 22 6 ||| fieldMask 4 4 := rfl
  rw [isMultiply_iff, and_eq_iff (by decide), hm, and_or_eq_iff, and_fieldMask_eq_iff, and_fieldMask_eq_iff]
  exact .rfl

theorem isMultiplyLong_iff_masked : isMultiplyLong w = true ↔
    w &&& rowMask .multiplyLong = rowMatch .multiplyLong := by
  have hm : rowMask .multiplyLong = fieldMask 23 5 ||| fieldMask 4 4 := rfl
  rw [isMultiplyLong_iff, and_eq_iff (by decide), hm, and_or_eq_iff, and_fieldMask_eq_iff, and_fieldMask_eq_iff]
  exact .rfl

theorem isBranchAndExchange_iff_masked : isBranchAndExchange w = true ↔
    w &&& rowMask .branchAndExchange = rowMatch .branchAndExchange := by
  have hm : rowMask .branchAndExchange = fieldMask 4 24 := rfl
  rw [isBranchAndExchange_iff, and_eq_iff (by decide), hm, and_fieldMask_eq_iff]
  exact .rfl

theorem isSingleDataSwap_iff_masked : isSingleDataSwap w = true ↔
    w &&& rowMask .singleDataSwap = rowMatch .singleDataSwap := by
  have hm : rowMask .singleDataSwap = fieldMask 23 5 ||| (fieldMask 20 2 ||| fieldMask 4 8) := rfl
  rw [isSingleDataSwap_iff, and_eq_iff (by decide), hm, and_or_eq_iff, and_or_eq_iff, and_fieldMask_eq_iff,
    and_fieldMask_eq_iff, and_fieldMask_eq_iff]
  exact .rfl

theorem isHalfwordDataTransferReg_iff_masked : isHalfwordDataTransferReg w = true ↔
    w &&& rowMask .halfwordDataTransferReg = rowMatch .halfwordDataTransferReg := by
  have hm : rowMask .halfwordDataTransferReg = fieldMask 25 3 ||| (fieldMask 22 1 ||| fieldMask 4 8) := rfl
  rw [isHalfwordDataTransferReg_iff, and_eq_iff (by decide), hm, and_or_eq_iff, and_or_eq_iff,
    and_fieldMask_eq_iff, and_bitMask_eq_iff, and_fieldMask_eq_iff]
  exact .rfl

theorem isHalfwordDataTransferImm_iff_masked : isHalfwordDataTransferImm w = true ↔
    w &&& rowMask .halfwordDataTransferImm = rowMatch .halfwordDataTransferImm := by
  have hm : rowMask .halfwordDataTransferImm = fieldMask 25 3 ||| (fieldMask 22 1 ||| fieldMask 4 4) := rfl
  rw [isHalfwordDataTransferImm_iff, and_eq_iff (by decide), hm, and_or_eq_iff, and_or_eq_iff,
    and_fieldMask_eq_iff, and_bitMask_eq_iff, and_fieldMask_eq_iff]
  exact .rfl

theorem isSignedDataTransfer_iff_masked : isSignedDataTransfer w = true ↔
    w &&& rowMask .signedDataTransfer = rowMatch .signedDataTransfer := by
  have hm : rowMask .signedDataTransfer = fieldMask 25 3 ||| (fieldMask 6 2 ||| fieldMask 4 1) := rfl
  rw [isSignedDataTransfer_iff, and_eq_iff (by decide), hm, and_or_eq_iff, and_or_eq_iff, and_fieldMask_eq_iff,
    and_fieldMask_eq_iff, and_bitMask_eq_iff]
  exact .rfl

theorem isDataProcessingPsr_iff_masked : isDataProcessingPsr w = true ↔
    w &&& rowMask .dataProcessingPsr = rowMatch .dataProcessingPsr := by
  have hm : rowMask .dataProcessingPsr = fieldMask 26 2 := rfl
  rw [isDataProcessingPsr_iff, and_eq_iff (by decide), hm, and_fieldMask_eq_iff]
  exact .rfl

theorem isLoadStore_iff_masked : isLoadStore w = true ↔
    w &&& rowMask .loadStore = rowMatch .loadStore := by
  have hm : rowMask .loadStore = fieldMask 26 2 := rfl
  rw [isLoadStore_iff, and_eq_iff (by decide), hm, and_fieldMask_eq_iff]
  exact .rfl

theorem isUndefined_iff_masked : isUndefined w = true ↔
    w &&& rowMask .undefined = rowMatch .undefined := by
  have hm : rowMask .undefined = fieldMask 25 3 ||| fieldMask 4 1 := rfl
  rw [isUndefined_iff, and_eq_iff (by decide), hm, and_or_eq_iff, and_fieldMask_eq_iff, and_bitMask_eq_iff]
  exact .rfl

theorem isBlockDataTransfer_iff_masked : isBlockDataTransfer w = true ↔
    w &&& rowMask .blockDataTransfer = rowMatch .blockDataTransfer := by
  have hm : rowMask .blockDataTransfer = fieldMask 25 3 ||| fieldMask 22 1 := rfl
  rw [isBlockDataTransfer_iff, and_eq_iff (by decide), hm, and_or_eq_iff, and_fieldMask_eq_iff,
    and_bitMask_eq_iff]
  exact .rfl

theorem isBranch_iff_masked : isBranch w = true ↔
    w &&& rowMask .branch = rowMatch .branch := by
  have hm : rowMask .branch = fieldMask 25 3 := rfl
  rw [isBranch_iff, and_eq_iff (by decide), hm, and_fieldMask_eq_iff]
  exact .rfl

theorem isCoprocDataTransfer_iff_masked : isCoprocDataTransfer w = true ↔
    w &&& rowMask .coprocDataTransfer = rowMatch .coprocDataTransfer := by
  have hm : rowMask .coprocDataTransfer = fieldMask 25 3 := rfl
  rw [isCoprocDataTransfer_iff, and_eq_iff (by decide), hm, and_fieldMask_eq_iff]
  exact .rfl

theorem isCoprocDataOp_iff_masked : isCoprocDataOp w = true ↔
    w &&& rowMask .coprocDataOp = rowMatch .coprocDataOp := by
  have hm : rowMask .coprocDataOp = fieldMask 24 4 ||| fieldMask 4 1 := rfl
  rw [isCoprocDataOp_iff, and_eq_iff (by decide), hm, and_or_eq_iff, and_fieldMask_eq_iff, and_bitMask_eq_iff]
  exact .rfl

theorem isCoprocRegTransfer_iff_masked : isCoprocRegTransfer w = true ↔
    w &&& rowMask .coprocRegTransfer = rowMatch .coprocRegTransfer := by
  have hm : rowMask .coprocRegTransfer = fieldMask 24 4 ||| fieldMask 4 1 := rfl
  rw [isCoprocRegTransfer_iff, and_eq_iff (by decide), hm, and_or_eq_iff, and_fieldMask_eq_iff,
    and_bitMask_eq_iff]
  exact .rfl

theorem isSoftwareInterrupt_iff_masked : isSoftwareInterrupt w = true ↔
    w &&& rowMask .softwareInterrupt = rowMatch .softwareInterrupt := by
  have hm : rowMask .softwareInterrupt = fieldMask 24 4 := rfl
  rw [isSoftwareInterrupt_iff, and_eq_iff (by decide), hm, and_fieldMask_eq_iff]
  exact .rfl

end

/-- Every row of the classifier's table holds exactly on the words of its mask and match. -/
theorem predicate_iff_masked {n : Nat} {P : Word → Bool} {f : InstructionFormat}
    (hn : predicateTable[n]? = some (P, f)) (w : Word) :
    P w = true ↔ w &&& rowMask f = rowMatch f := by
  have all_rows : ∀ r ∈ predicateTable, (r.1 w = true ↔ w &&& rowMask r.2 = rowMatch r.2) := by
    simp only [predicateTable, List.forall_mem_append, List.forall_mem_cons, List.not_mem_nil,
      IsEmpty.forall_iff, forall_true_iff, and_true]
    exact ⟨⟨isMultiply_iff_masked w, isMultiplyLong_iff_masked w, isBranchAndExchange_iff_masked w,
      isSingleDataSwap_iff_masked w, isHalfwordDataTransferReg_iff_masked w,
      isHalfwordDataTransferImm_iff_masked w, isSignedDataTransfer_iff_masked w,
      isDataProcessingPsr_iff_masked w⟩, isLoadStore_iff_masked w, isUndefined_iff_masked w,
      isBlockDataTransfer_iff_masked w, isBranch_iff_masked w, isCoprocDataTransfer_iff_masked w,
      isCoprocDataOp_iff_masked w, isCoprocRegTransfer_iff_masked w, isSoftwareInterrupt_iff_masked w⟩
  exact all_rows (P, f) (List.mem_of_getElem? hn)

theorem classify_eq_unclassified_iff_masked (w : Word) :
    classify w = .err (.unclassifiedInstruction w) ↔ w &&& 0x0E400000#32 = 0x08400000#32 := by
  have hm : 0x0E400000#32 = fieldMask 25 3 ||| fieldMask 22 1 := rfl
  rw [classify_eq_unclassified_iff, and_iff_left rfl, and_eq_iff (by decide), hm, and_or_eq_iff,
    and_fieldMask_eq_iff, and_bitMask_eq_iff]
  exact .rfl

/-- Settles O9: the sixteen rows are `predicate_iff_masked` at their positions, the hole is
`classify_eq_unclassified_iff_masked`. -/
theorem predicatesAreMaskAndMatch : Obligations.PredicatesAreMaskAndMatch := fun w =>
  ⟨isMultiply_iff_masked w, isMultiplyLong_iff_masked w, isBranchAndExchange_iff_masked w,
    isSingleDataSwap_iff_masked w, isHalfwordDataTransferReg_iff_masked w,
    isHalfwordDataTransferImm_iff_masked w, isSignedDataTransfer_iff_masked w,
    isDataProcessingPsr_iff_masked w, isLoadStore_iff_masked w, isUndefined_iff_masked w,
    isBlockDataTransfer_iff_masked w, isBranch_iff_masked w, isCoprocDataTransfer_iff_masked w,
    isCoprocDataOp_iff_masked w, isCoprocRegTransfer_iff_masked w, isSoftwareInterrupt_iff_masked w,
    classify_eq_unclassified_iff_masked w⟩

end Sys2Proof.Machine
end

section
/-! PROOFS. Which rows can hold of one word, and the bits that no row reads (`41_format_classifier.md` R71,
R72, R89, R91): read off the masks and matches of the rows. -/

namespace Sys2Proof.Machine

/-! ## Two rows -/

/-- The code of a row's format is the row's position (`10_state.md` R29). -/
theorem formatCode_of_row {k : Nat} {P : Word → Bool} {f : InstructionFormat}
    (hk : predicateTable[k]? = some (P, f)) : (formatCode f).toNat = k := by
  have hcodes : (predicateTable.map fun r => (formatCode r.2).toNat) = List.range 16 := rfl
  have hlt : k < 16 := (List.getElem?_eq_some_iff.mp hk).1
  have hentry := congrArg (·[k]?) hcodes
  simpa [hk, hlt] using hentry

theorem mem_formats_of_row {k : Nat} {P : Word → Bool} {f : InstructionFormat}
    (hk : predicateTable[k]? = some (P, f)) : f ∈ predicateTable.map Prod.snd :=
  List.mem_map_of_mem (f := Prod.snd) (List.mem_of_getElem? hk)

/-- The matches of two rows that hold of one word agree under both masks. -/
theorem matches_agree {w m n p q : Word} (hp : w &&& m = p) (hq : w &&& n = q) :
    p &&& n = q &&& m := by
  rw [← hp, ← hq, BitVec.and_assoc, BitVec.and_assoc, BitVec.and_comm m n]

/-- A row whose mask covers another's and whose match agrees with it implies it. -/
theorem masked_of_masked {w m n p q : Word} (hp : w &&& m = p) (hm : m &&& n = n)
    (hq : p &&& n = q) : w &&& n = q := by
  rw [← hq, ← hp, BitVec.and_assoc, hm]

/-- Of any two rows whose matches agree under both masks the later one is row 8 after one of rows 1 to 7, or
row 10 after row 9. -/
theorem overlapping_rows : ∀ f ∈ predicateTable.map Prod.snd, ∀ g ∈ predicateTable.map Prod.snd,
    rowMatch f &&& rowMask g = rowMatch g &&& rowMask f →
    (formatCode f).toNat < (formatCode g).toNat →
      ((formatCode f).toNat < 7 ∧ (formatCode g).toNat = 7)
      ∨ ((formatCode f).toNat = 8 ∧ (formatCode g).toNat = 9) := by
  decide

/-- Rows 1 to 7 test all that row 8 tests, and row 10 all that row 9 tests. -/
theorem implying_rows : ∀ f ∈ predicateTable.map Prod.snd, ∀ g ∈ predicateTable.map Prod.snd,
    ((formatCode f).toNat < 7 ∧ (formatCode g).toNat = 7)
      ∨ ((formatCode f).toNat = 9 ∧ (formatCode g).toNat = 8) →
    rowMask f &&& rowMask g = rowMask g ∧ rowMatch f &&& rowMask g = rowMatch g := by
  decide

section
variable {j k : Nat} {P Q : Word → Bool} {f g : InstructionFormat}

theorem rows_overlap (hj : predicateTable[j]? = some (P, f)) (hk : predicateTable[k]? = some (Q, g))
    {w : Word} (hP : P w = true) (hQ : Q w = true) (hjk : j < k) :
    (j < 7 ∧ k = 7) ∨ (j = 8 ∧ k = 9) := by
  have hagree := matches_agree ((predicate_iff_masked hj w).mp hP) ((predicate_iff_masked hk w).mp hQ)
  have h := overlapping_rows f (mem_formats_of_row hj) g (mem_formats_of_row hk) hagree
  rw [formatCode_of_row hj, formatCode_of_row hk] at h
  exact h hjk

theorem row_implies_row (hj : predicateTable[j]? = some (P, f))
    (hk : predicateTable[k]? = some (Q, g)) (hjk : (j < 7 ∧ k = 7) ∨ (j = 9 ∧ k = 8)) {w : Word}
    (hP : P w = true) : Q w = true := by
  have h := implying_rows f (mem_formats_of_row hj) g (mem_formats_of_row hk)
  rw [formatCode_of_row hj, formatCode_of_row hk] at h
  obtain ⟨hmask, hmatch⟩ := h hjk
  exact (predicate_iff_masked hk w).mpr
    (masked_of_masked ((predicate_iff_masked hj w).mp hP) hmask hmatch)

end

/-- Settles O10: the implications are `row_implies_row`, the complete list is `rows_overlap`. -/
theorem rowsOverlapOnlyAsListed : Obligations.RowsOverlapOnlyAsListed :=
  fun _ _ _ _ _ _ _ hj hk =>
    ⟨fun hj7 hk7 => row_implies_row hj hk (.inl ⟨hj7, hk7⟩),
      fun hj9 hk8 => row_implies_row hj hk (.inr ⟨hj9, hk8⟩),
      fun hjk hP hQ => rows_overlap hj hk hP hQ hjk⟩

/-! ## The effective regions -/

theorem predicate_of_classify {n : Nat} {P : Word → Bool} {f : InstructionFormat} {w : Word}
    (hn : predicateTable[n]? = some (P, f)) (h : classify w = .ok f) : P w = true :=
  ((classify_eq_ok_iff_of_row hn w).mp h).1

/-- A row other than 8 and 10 decides wherever it holds: no earlier row holds of the same word. -/
theorem classify_eq_ok_iff_predicate {n : Nat} {P : Word → Bool} {f : InstructionFormat}
    (hn : predicateTable[n]? = some (P, f)) (hrow : n ≠ 7 ∧ n ≠ 9)
    (w : Word) : classify w = .ok f ↔ P w = true := by
  rw [classify_eq_ok_iff_of_row hn]
  refine and_iff_left_of_imp fun hP => forall_mem_take_iff (C := fun Q => Q w = false).mpr ?_
  intro j Q g hj hQ
  refine Bool.eq_false_iff.mpr fun hQw => ?_
  obtain ⟨-, hn7⟩ | ⟨-, hn9⟩ := rows_overlap hQ hn hQw hP hj
  · exact hrow.1 hn7
  · exact hrow.2 hn9

theorem classify_of_predicate {n : Nat} {P : Word → Bool} {f : InstructionFormat} {w : Word}
    (hn : predicateTable[n]? = some (P, f)) (hrow : n ≠ 7 ∧ n ≠ 9)
    (hP : P w = true) : classify w = .ok f :=
  (classify_eq_ok_iff_predicate hn hrow w).mpr hP

/-- Settles O12: each row is `classify_eq_ok_iff_predicate` at its position. -/
theorem otherRegionsAreThePredicates : Obligations.OtherRegionsAreThePredicates := by
  intro w
  exact ⟨classify_eq_ok_iff_predicate (n := 0) rfl (by decide) w,
    classify_eq_ok_iff_predicate (n := 1) rfl (by decide) w,
    classify_eq_ok_iff_predicate (n := 2) rfl (by decide) w,
    classify_eq_ok_iff_predicate (n := 3) rfl (by decide) w,
    classify_eq_ok_iff_predicate (n := 4) rfl (by decide) w,
    classify_eq_ok_iff_predicate (n := 5) rfl (by decide) w,
    classify_eq_ok_iff_predicate (n := 6) rfl (by decide) w,
    (classify_eq_ok_iff_predicate (n := 8) rfl (by decide) w).trans (isLoadStore_iff w),
    classify_eq_ok_iff_predicate (n := 10) rfl (by decide) w,
    classify_eq_ok_iff_predicate (n := 11) rfl (by decide) w,
    classify_eq_ok_iff_predicate (n := 12) rfl (by decide) w,
    classify_eq_ok_iff_predicate (n := 13) rfl (by decide) w,
    classify_eq_ok_iff_predicate (n := 14) rfl (by decide) w,
    classify_eq_ok_iff_predicate (n := 15) rfl (by decide) w⟩

/-- Settles O13: row 10 is shadowed by row 9, so `classify` never answers `Undefined`, and a mismatch
names as actual only what `classify` answers. -/
theorem undefinedIsNeverProduced : Obligations.UndefinedIsNeverProduced := by
  intro w
  have never {α : Type} {expected : InstructionFormat} {record : α} (e : InstructionFormat) :
      requireFormat expected (classify w) record ≠ .err (.formatMismatch e .undefined) := by
    intro h
    obtain ⟨-, -, -, hne⟩ := requireFormat_classify_eq_mismatch_iff.mp h
    exact hne rfl
  exact ⟨classify_of_isUndefined, classify_ne_undefined, never, never, never, never, never⟩

/-! ## The bits that are read -/

/-- Every row's mask lies within bits 27:4. -/
theorem rowMask_within_bits27_4 : ∀ f ∈ predicateTable.map Prod.snd,
    fieldMask 4 24 &&& rowMask f = rowMask f := by
  decide

section
variable {w v : Word}

theorem predicate_eq_of_bits27_4_eq (h : w.extractLsb' 4 24 = v.extractLsb' 4 24) :
    ∀ r ∈ predicateTable, r.1 w = r.1 v := by
  rintro ⟨P, f⟩ hr
  obtain ⟨n, hn⟩ := List.mem_iff_getElem?.mp hr
  have hmask := rowMask_within_bits27_4 f (mem_formats_of_row hn)
  have hmasked : w &&& rowMask f = v &&& rowMask f := by
    rw [← hmask, ← BitVec.and_assoc, and_fieldMask_eq_iff.mpr h, BitVec.and_assoc]
  rw [Bool.eq_iff_iff, predicate_iff_masked hn, predicate_iff_masked hn, hmasked]

/-- The first match is the same where every row answers the same, but for the payload of the error. -/
theorem firstMatch_eq_ok_congr {rows : List ((Word → Bool) × InstructionFormat)}
    (h : ∀ r ∈ rows, r.1 w = r.1 v) (f : InstructionFormat) :
    firstMatch w rows = .ok f ↔ firstMatch v rows = .ok f := by
  induction rows with
  | nil => exact ⟨nofun, nofun⟩
  | cons row rows ih =>
    obtain ⟨hrow, hrows⟩ := List.forall_mem_cons.mp h
    rw [firstMatch, firstMatch, hrow]
    cases row.1 v with
    | true => exact .rfl
    | false => exact ih hrows

theorem classify_eq_ok_congr (h : w.extractLsb' 4 24 = v.extractLsb' 4 24) (f : InstructionFormat) :
    classify w = .ok f ↔ classify v = .ok f :=
  firstMatch_eq_ok_congr (predicate_eq_of_bits27_4_eq h) f

/-- Settles O15: every row answers the same on both words. -/
theorem classifyReadsOnlyBits27To4 : Obligations.ClassifyReadsOnlyBits27To4 := by
  intro w v h
  refine ⟨fun f => (classify_eq_ok_congr h f).mp, fun herr => ?_⟩
  have hfail := firstMatch_eq_unclassified_iff.mp herr
  exact firstMatch_eq_unclassified_iff.mpr fun r hr =>
    (predicate_eq_of_bits27_4_eq h r hr).symm.trans (hfail r hr)

end

end Sys2Proof.Machine
end

section
/-! PROOFS. The exact region of `DataProcessingPsr`, the order-free decision tree, and the neighbours of a
branch-and-exchange word (`41_format_classifier.md` R89, R94, `46_branch_decoders.md` R187). -/

namespace Sys2Proof.Machine

/-! ## Slices put together -/

theorem append_eq_append_iff {n m : Nat} {x x' : BitVec n} {y y' : BitVec m} :
    x ++ y = x' ++ y' ↔ x = x' ∧ y = y' := by
  refine ⟨fun h => ?_, fun ⟨hx, hy⟩ => by rw [hx, hy]⟩
  have high := congrArg (BitVec.extractLsb' m n) h
  have low := congrArg (BitVec.extractLsb' 0 m) h
  rw [BitVec.extractLsb'_append_eq_left, BitVec.extractLsb'_append_eq_left] at high
  rw [BitVec.extractLsb'_append_eq_right, BitVec.extractLsb'_append_eq_right] at low
  exact ⟨high, low⟩

/-- A slice is a concatenation exactly when its high part and its low part are the two parts. -/
theorem slice_eq_append_iff {k n m i : Nat} {w : BitVec k} (x : BitVec n) (y : BitVec m) :
    w.extractLsb' i (n + m) = x ++ y ↔ w.extractLsb' (i + m) n = x ∧ w.extractLsb' i m = y := by
  rw [← BitVec.extractLsb'_append_extractLsb'_eq_extractLsb' rfl, append_eq_append_iff]

/-- A slice of one bit is the bit. -/
theorem slice_one_eq_ofBool_iff {k i : Nat} {w : BitVec k} (b : Bool) :
    w.extractLsb' i 1 = BitVec.ofBool b ↔ w.getLsbD i = b := by
  have hslice : w.extractLsb' i 1 = BitVec.ofBool (w.getLsbD i) := by
    ext j hj
    obtain rfl : j = 0 := Nat.lt_one_iff.mp hj
    simp
  rw [hslice, BitVec.ofBool_eq_iff_eq]

section
variable {w : Word}

/-! ## Where rows 1 to 7 leave a word to row 8 -/

/-- Bits 27:25 from bits 27:26 and bit 25. -/
theorem bits27_25_eq_iff (v : BitVec 2) (b : Bool) : w.extractLsb' 25 3 = v ++ BitVec.ofBool b ↔
    w.extractLsb' 26 2 = v ∧ w.getLsbD 25 = b :=
  (slice_eq_append_iff v (BitVec.ofBool b)).trans (and_congr_right' (slice_one_eq_ofBool_iff b))

/-- Bits 27:24 from bits 27:26, bit 25 and bit 24. -/
theorem bits27_24_eq_iff (v : BitVec 2) (b b' : Bool) :
    w.extractLsb' 24 4 = v ++ BitVec.ofBool b ++ BitVec.ofBool b' ↔
      w.extractLsb' 26 2 = v ∧ w.getLsbD 25 = b ∧ w.getLsbD 24 = b' :=
  (slice_eq_append_iff (v ++ BitVec.ofBool b) (BitVec.ofBool b')).trans <|
    (and_congr (bits27_25_eq_iff v b) (slice_one_eq_ofBool_iff b')).trans and_assoc

/-- Bits 27:26 are one of four values. -/
theorem bits27_26_eq_three (h0 : w.extractLsb' 26 2 ≠ 0#2) (h1 : w.extractLsb' 26 2 ≠ 1#2)
    (h2 : w.extractLsb' 26 2 ≠ 2#2) : w.extractLsb' 26 2 = 0b11#2 := by
  generalize w.extractLsb' 26 2 = b at *
  revert b
  decide

/-- The tail of row 7 by the value of bits 7:4. -/
theorem signed_tail_iff : w.extractLsb' 6 2 = 0b11#2 ∧ w.getLsbD 4 = true ↔
    w.extractLsb' 4 4 = 0b1101#4 ∨ w.extractLsb' 4 4 = 0b1111#4 := by
  have h76 : w.extractLsb' 6 2 = (w.extractLsb' 4 4).extractLsb' 2 2 := subslice_of_slice rfl 2 2 (by decide)
  have h4 : w.getLsbD 4 = (w.extractLsb' 4 4).getLsbD 0 := getLsbD_of_slice rfl 0 (by decide)
  rw [h76, h4]
  generalize w.extractLsb' 4 4 = b
  revert b
  decide

/-- The values of bits 7:4 that rows 1 to 7 test, and the rest. -/
theorem bits7_4_cases (b : BitVec 4) :
    b = 0b0001#4 ∨ b = 0b1001#4 ∨ b = 0b1011#4 ∨ b = 0b1101#4 ∨ b = 0b1111#4
      ∨ (b ≠ 0b0001#4 ∧ b ≠ 0b1001#4 ∧ b ≠ 0b1011#4 ∧ b ≠ 0b1101#4 ∧ b ≠ 0b1111#4) := by
  revert b
  decide

/-- Rows 1 to 7 against a word with bits 27:25 clear, by the value of bits 7:4 (`41_format_classifier.md`
R89). -/
theorem rows_one_to_seven_fail_iff (h : w.extractLsb' 25 3 = 0#3) :
    (∀ r ∈ predicateTable.take 7, r.1 w = false) ↔
      (w.extractLsb' 4 4 ≠ 0b0001#4 ∧ w.extractLsb' 4 4 ≠ 0b1001#4
          ∧ w.extractLsb' 4 4 ≠ 0b1011#4 ∧ w.extractLsb' 4 4 ≠ 0b1101#4
          ∧ w.extractLsb' 4 4 ≠ 0b1111#4)
      ∨ (w.extractLsb' 4 4 = 0b0001#4 ∧ w.extractLsb' 8 20 ≠ 0x12FFF#20)
      ∨ (w.extractLsb' 4 4 = 0b1001#4 ∧ w.extractLsb' 22 6 ≠ 0#6 ∧ w.extractLsb' 23 5 ≠ 1#5
          ∧ ¬ (w.extractLsb' 23 5 = 2#5 ∧ w.extractLsb' 20 2 = 0#2 ∧ w.extractLsb' 8 4 = 0#4))
      ∨ (w.extractLsb' 4 4 = 0b1011#4 ∧ w.getLsbD 22 = false ∧ w.extractLsb' 8 4 ≠ 0#4) := by
  have hbx : w.extractLsb' 4 24 = 0x12FFF1#24 ↔
      w.extractLsb' 8 20 = 0x12FFF#20 ∧ w.extractLsb' 4 4 = 0b0001#4 :=
    slice_eq_append_iff 0x12FFF#20 0b0001#4
  have hswap : w.extractLsb' 4 8 = 0b00001001#8 ↔
      w.extractLsb' 8 4 = 0#4 ∧ w.extractLsb' 4 4 = 0b1001#4 := slice_eq_append_iff 0#4 0b1001#4
  have hreg : w.extractLsb' 4 8 = 0b00001011#8 ↔
      w.extractLsb' 8 4 = 0#4 ∧ w.extractLsb' 4 4 = 0b1011#4 := slice_eq_append_iff 0#4 0b1011#4
  rw [forall_mem_rows_one_to_seven (C := fun P => P w = false)]
  simp only [Bool.eq_false_iff, ne_eq, isMultiply_iff, isMultiplyLong_iff, isBranchAndExchange_iff,
    isSingleDataSwap_iff, isHalfwordDataTransferReg_iff, isHalfwordDataTransferImm_iff,
    isSignedDataTransfer_iff, signed_tail_iff, hbx, hswap, hreg, h]
  obtain hb | hb | hb | hb | hb | ⟨h1, h9, h11, h13, h15⟩ := bits7_4_cases (w.extractLsb' 4 4)
  case inr.inr.inl =>
    have hcomm (a b : Prop) : (a → ¬ b) ∧ a ↔ a ∧ ¬ b := by tauto
    simp [hb, hcomm]
  case inr.inr.inr.inr.inr => simp [h1, h9, h11, h13, h15]
  all_goals simp [hb]

/-- The region of row 8, in the five cases of the rule (`41_format_classifier.md` R89): bit 25 set, or one of
the four cases of `rows_one_to_seven_fail_iff`. -/
theorem classify_eq_dataProcessingPsr_iff_bits (w : Word) : classify w = .ok .dataProcessingPsr ↔
    w.extractLsb' 26 2 = 0#2 ∧
      (w.getLsbD 25 = true
      ∨ (w.getLsbD 25 = false ∧ w.extractLsb' 4 4 ≠ 0b0001#4 ∧ w.extractLsb' 4 4 ≠ 0b1001#4
          ∧ w.extractLsb' 4 4 ≠ 0b1011#4 ∧ w.extractLsb' 4 4 ≠ 0b1101#4
          ∧ w.extractLsb' 4 4 ≠ 0b1111#4)
      ∨ (w.extractLsb' 4 4 = 0b0001#4 ∧ w.extractLsb' 8 20 ≠ 0x12FFF#20)
      ∨ (w.extractLsb' 4 4 = 0b1001#4 ∧ w.extractLsb' 22 6 ≠ 0#6 ∧ w.extractLsb' 23 5 ≠ 1#5
          ∧ ¬ (w.extractLsb' 23 5 = 2#5 ∧ w.extractLsb' 20 2 = 0#2 ∧ w.extractLsb' 8 4 = 0#4))
      ∨ (w.extractLsb' 4 4 = 0b1011#4 ∧ w.getLsbD 22 = false ∧ w.extractLsb' 8 4 ≠ 0#4)) := by
  rw [classify_eq_dataProcessingPsr_iff]
  refine and_congr_right fun htop => ?_
  cases h25 : w.getLsbD 25 with
  | true =>
    have hset : w.extractLsb' 25 3 ≠ 0#3 := fun h =>
      Bool.eq_false_iff.mp ((bits27_25_eq_iff 0#2 false).mp h).2 h25
    exact iff_of_true (rows_one_to_seven_fail hset) (.inl rfl)
  | false =>
    rw [rows_one_to_seven_fail_iff ((bits27_25_eq_iff 0#2 false).mpr ⟨htop, h25⟩)]
    simp only [Bool.false_eq_true, false_or, true_and]

/-- Settles O11: `classify_eq_dataProcessingPsr_iff_bits`. -/
theorem dataProcessingRegionIsExact : Obligations.DataProcessingRegionIsExact :=
  classify_eq_dataProcessingPsr_iff_bits

/-! ## The decision tree -/

/-- A range compared with a number that fits it. -/
theorem extract_eq_iff {lsb msb v : Nat} {h : ExtractDomain lsb msb}
    (hv : v < 2 ^ (msb - lsb + 1)) : extract w lsb msb h = v ↔
      w.extractLsb' lsb (msb - lsb + 1) = BitVec.ofNat (msb - lsb + 1) v := by
  rw [extract_eq_extractLsb', ← BitVec.toNat_inj, BitVec.toNat_ofNat, Nat.mod_eq_of_lt hv]

/-- Settles O14: at each leaf of the tree its tests are the row's predicate, or, where the leaf is
`DataProcessingPsr`, one case of the region of row 8. -/
theorem classifyEqualsDecisionTree : Obligations.ClassifyEqualsDecisionTree := by
  intro w
  have dataProcessing := (classify_eq_dataProcessingPsr_iff_bits w).mpr
  simp only [classifyTree, extract_self_eq_one, extract_self_eq_zero]
  simp (disch := decide) only [extract_eq_iff]
  split_ifs with htop h25 h9 hmul hml hswap h1 hbx h11 h22 h118 hsigned hls hbr h25 h22 h25 h24 h4
  -- bits 27:26 = 00
  · exact dataProcessing ⟨htop, .inl h25⟩
  · exact classify_of_predicate (n := 0) rfl (by decide) ((isMultiply_iff w).mpr ⟨hmul, h9⟩)
  · exact classify_of_predicate (n := 1) rfl (by decide) ((isMultiplyLong_iff w).mpr ⟨hml, h9⟩)
  · obtain ⟨h2723, h2120, h118⟩ := hswap
    exact classify_of_predicate (n := 3) rfl (by decide) ((isSingleDataSwap_iff w).mpr
      ⟨h2723, h2120, (slice_eq_append_iff 0#4 0b1001#4).mpr ⟨h118, h9⟩⟩)
  · exact dataProcessing ⟨htop, .inr (.inr (.inr (.inl ⟨h9, hmul, hml, hswap⟩)))⟩
  · exact classify_of_predicate (n := 2) rfl (by decide) ((isBranchAndExchange_iff w).mpr
      ((slice_eq_append_iff 0x12FFF#20 0b0001#4).mpr ⟨hbx, h1⟩))
  · exact dataProcessing ⟨htop, .inr (.inr (.inl ⟨h1, hbx⟩))⟩
  · exact classify_of_predicate (n := 5) rfl (by decide) ((isHalfwordDataTransferImm_iff w).mpr
      ⟨(bits27_25_eq_iff 0#2 false).mpr ⟨htop, Bool.eq_false_iff.mpr h25⟩, h22, h11⟩)
  · exact classify_of_predicate (n := 4) rfl (by decide) ((isHalfwordDataTransferReg_iff w).mpr
      ⟨(bits27_25_eq_iff 0#2 false).mpr ⟨htop, Bool.eq_false_iff.mpr h25⟩,
        Bool.eq_false_iff.mpr h22, (slice_eq_append_iff 0#4 0b1011#4).mpr ⟨h118, h11⟩⟩)
  · exact dataProcessing
      ⟨htop, .inr (.inr (.inr (.inr ⟨h11, Bool.eq_false_iff.mpr h22, h118⟩)))⟩
  · exact classify_of_predicate (n := 6) rfl (by decide) ((isSignedDataTransfer_iff w).mpr
      ⟨(bits27_25_eq_iff 0#2 false).mpr ⟨htop, Bool.eq_false_iff.mpr h25⟩,
        signed_tail_iff.mpr hsigned⟩)
  · obtain ⟨h13, h15⟩ := not_or.mp hsigned
    exact dataProcessing
      ⟨htop, .inr (.inl ⟨Bool.eq_false_iff.mpr h25, h1, h9, h11, h13, h15⟩)⟩
  -- bits 27:26 = 01
  · exact classify_of_bits27_26_eq_one hls
  -- bits 27:26 = 10
  · exact classify_of_bits27_25_eq_five ((bits27_25_eq_iff 0b10#2 true).mpr ⟨hbr, h25⟩)
  · exact classify_of_predicate (n := 10) rfl (by decide) ((isBlockDataTransfer_iff w).mpr
      ⟨(bits27_25_eq_iff 0b10#2 false).mpr ⟨hbr, Bool.eq_false_iff.mpr h25⟩, h22⟩)
  · exact classify_of_hole ((bits27_25_eq_iff 0b10#2 false).mpr ⟨hbr, Bool.eq_false_iff.mpr h25⟩)
      (Bool.ne_false_iff.mp h22)
  -- bits 27:26 = 11
  all_goals have htop3 := bits27_26_eq_three htop hls hbr
  · exact classify_of_predicate (n := 12) rfl (by decide) ((isCoprocDataTransfer_iff w).mpr
      ((bits27_25_eq_iff 0b11#2 false).mpr ⟨htop3, h25⟩))
  all_goals have h25' := Bool.ne_false_iff.mp h25
  · exact classify_of_predicate (n := 15) rfl (by decide) ((isSoftwareInterrupt_iff w).mpr
      ((bits27_24_eq_iff 0b11#2 true true).mpr ⟨htop3, h25', h24⟩))
  all_goals
    have h24' := Bool.eq_false_iff.mpr h24
    have hcoproc := (bits27_24_eq_iff 0b11#2 true false).mpr ⟨htop3, h25', h24'⟩
  · exact classify_of_predicate (n := 13) rfl (by decide) ((isCoprocDataOp_iff w).mpr ⟨hcoproc, h4⟩)
  · exact classify_of_predicate (n := 14) rfl (by decide)
      ((isCoprocRegTransfer_iff w).mpr ⟨hcoproc, Bool.ne_false_iff.mp h4⟩)

end

/-! ## The neighbours of a branch-and-exchange word -/

/-- Each neighbour of the pattern of row 3, bits 3:0 and the condition left clear. -/
theorem classify_branchExchange_pattern_flip : ∀ i < 28, 4 ≤ i →
    classify (0x012FFF10#32 ^^^ (1#32 <<< i)) =
      .ok (if i = 27 then .blockDataTransfer else if i = 26 then .loadStore else .dataProcessingPsr) := by
  decide

/-- Settles O34: bits 27:4 alone classify, and in them the word is the pattern of row 3. -/
theorem branchExchangeBitFlips : Obligations.BranchExchangeBitFlips := by
  intro w i hbx hlow hhigh
  have hpattern : w.extractLsb' 4 24 = (0x012FFF10#32).extractLsb' 4 24 :=
    (isBranchAndExchange_iff w).mp hbx
  refine (classify_eq_ok_congr ?_ _).mpr
    (classify_branchExchange_pattern_flip i (Nat.lt_succ_of_le hhigh) hlow)
  rw [BitVec.extractLsb'_xor, BitVec.extractLsb'_xor, hpattern]

end Sys2Proof.Machine
end

section
/-! PROOFS. Every encoder word by its slices: a word is the encoder's for some operands exactly when it has the
row's fixed bits and reads the operands back (`30_encoding.md` R42 to R47). -/

namespace Sys2Proof

theorem condOf_eq_iff {w : Word} {c : ConditionCode} :
    condOf w = c ↔ w.extractLsb' 28 4 = c.bits :=
  condName_eq_iff

/-- The name of a bit, by the bit that the name stands for. -/
theorem lsOpcodeName_eq_iff {b : Bool} {op : LsOpcode} : lsOpcodeName b = op ↔ b = op.bit := by
  constructor
  · rintro rfl; exact (bit_lsOpcodeName b).symm
  · rintro rfl; exact lsOpcodeName_bit op

end Sys2Proof

namespace Sys2Proof.Machine

theorem eq_append_iff {n m : Nat} {w : BitVec (n + m)} (x : BitVec n) (y : BitVec m) :
    w = x ++ y ↔ w.extractLsb' m n = x ∧ w.extractLsb' 0 m = y := by
  have h := slice_eq_append_iff (w := w) (i := 0) x y
  rwa [BitVec.extractLsb'_eq_self, Nat.zero_add] at h

theorem slice_one_eq_zero_iff {k i : Nat} {w : BitVec k} :
    w.extractLsb' i 1 = 0#1 ↔ w.getLsbD i = false :=
  slice_one_eq_ofBool_iff false

theorem slice_one_eq_one_iff {k i : Nat} {w : BitVec k} :
    w.extractLsb' i 1 = 1#1 ↔ w.getLsbD i = true :=
  slice_one_eq_ofBool_iff true

/-- Bits 11:0 in the four parts that every register shape has. -/
theorem bits11_0_eq_iff {w : Word} (hi : BitVec 5) (ty : BitVec 2) (b : BitVec 1) (lo : BitVec 4) :
    w.extractLsb' 0 12 = hi ++ ty ++ b ++ lo ↔ w.extractLsb' 7 5 = hi ∧ w.extractLsb' 5 2 = ty
      ∧ w.extractLsb' 4 1 = b ∧ w.extractLsb' 0 4 = lo := by
  refine (slice_eq_append_iff (n := 5 + 2 + 1) (m := 4) _ _).trans ?_
  simp only [slice_eq_append_iff, and_assoc, -Nat.reduceAdd]

section
variable {w : Word} (c : ConditionCode)

/-! ## Operand shapes: bit 25 (and, in operand2, bit 4) tells which -/

theorem op2Of_eq_iff {op2 : Op2Form} :
    op2Of w = op2 ↔ w.getLsbD 25 = op2.bit25 ∧ w.extractLsb' 0 12 = op2.low12 := by
  cases op2 with
  | imm rot v =>
    have hlow : w.extractLsb' 0 12 = (Op2Form.imm rot v).low12 ↔
        w.extractLsb' 8 4 = rot ∧ w.extractLsb' 0 8 = v := slice_eq_append_iff rot v
    rw [op2Of, hlow]
    generalize w.getLsbD 25 = b25, w.getLsbD 4 = b4
    cases b25 <;> cases b4 <;> simp [Op2Form.bit25]
  | direct count ty low =>
    have hlow := bits11_0_eq_iff (w := w) count ty 0#1 low
    rw [slice_one_eq_zero_iff] at hlow
    rw [op2Of, Op2Form.low12, hlow]
    generalize w.getLsbD 25 = b25, w.getLsbD 4 = b4
    cases b25 <;> cases b4 <;> simp [Op2Form.bit25]
  | indirect reg ty low =>
    have hlow := bits11_0_eq_iff (w := w) reg ty 1#1 low
    rw [slice_one_eq_one_iff] at hlow
    rw [op2Of, Op2Form.low12, hlow]
    generalize w.getLsbD 25 = b25, w.getLsbD 4 = b4
    cases b25 <;> cases b4 <;> simp [Op2Form.bit25]

theorem offsetOf_eq_iff {off : OffsetForm} :
    offsetOf w = off ↔ w.getLsbD 25 = off.bit25 ∧ w.extractLsb' 0 12 = off.low12 := by
  cases off with
  | imm v =>
    rw [offsetOf, OffsetForm.low12]
    generalize w.getLsbD 25 = b25
    cases b25 <;> simp [OffsetForm.bit25]
  | shift count ty b reg =>
    have hlow := bits11_0_eq_iff (w := w) count ty (BitVec.ofBool b) reg
    rw [slice_one_eq_ofBool_iff] at hlow
    rw [offsetOf, OffsetForm.low12, hlow]
    generalize w.getLsbD 25 = b25
    cases b25 <;> simp [OffsetForm.bit25]

theorem multiplyWord_eq_iff (x : BitVec 14) (lo : BitVec 4) : w = multiplyWord c x lo ↔
    condOf w = c ∧ w.extractLsb' 22 6 = 0#6 ∧ w.extractLsb' 8 14 = x ∧ w.extractLsb' 4 4 = 0b1001#4
      ∧ w.extractLsb' 0 4 = lo := by
  refine (eq_append_iff (n := 4 + 6 + 14 + 4) (m := 4) _ _).trans ?_
  simp only [slice_eq_append_iff, condOf_eq_iff, and_assoc, -Nat.reduceAdd]

theorem mlWord_eq_iff (u a f : Bool) (hi lo m n : BitVec 4) : w = mlWord c u a f hi lo m n ↔
    condOf w = c ∧ w.extractLsb' 23 5 = 1#5 ∧ w.getLsbD 22 = u ∧ w.getLsbD 21 = a ∧ w.getLsbD 20 = f
      ∧ w.extractLsb' 16 4 = hi ∧ w.extractLsb' 12 4 = lo ∧ w.extractLsb' 8 4 = m
      ∧ w.extractLsb' 4 4 = 0b1001#4 ∧ w.extractLsb' 0 4 = n := by
  refine (eq_append_iff (n := 4 + 5 + 1 + 1 + 1 + 4 + 4 + 4 + 4) (m := 4) _ _).trans ?_
  simp only [slice_eq_append_iff, condOf_eq_iff, slice_one_eq_ofBool_iff, and_assoc, -Nat.reduceAdd]

theorem bxWord_eq_iff (t : BitVec 4) : w = bxWord c t ↔
    condOf w = c ∧ w.extractLsb' 4 24 = 0x12FFF1#24 ∧ w.extractLsb' 0 4 = t := by
  refine (eq_append_iff (n := 4 + 24) (m := 4) _ _).trans ?_
  simp only [slice_eq_append_iff, condOf_eq_iff, and_assoc, -Nat.reduceAdd]

theorem swapWord_eq_iff (b : Bool) (x : BitVec 8) (lo : BitVec 4) : w = swapWord c b x lo ↔
    condOf w = c ∧ w.extractLsb' 23 5 = 0b00010#5 ∧ w.getLsbD 22 = b ∧ w.extractLsb' 20 2 = 0#2
      ∧ w.extractLsb' 12 8 = x ∧ w.extractLsb' 4 8 = 0b00001001#8 ∧ w.extractLsb' 0 4 = lo := by
  refine (eq_append_iff (n := 4 + 5 + 1 + 2 + 8 + 8) (m := 4) _ _).trans ?_
  simp only [slice_eq_append_iff, condOf_eq_iff, slice_one_eq_ofBool_iff, and_assoc, -Nat.reduceAdd]

theorem halfwordRegWord_eq_iff (p : BitVec 2) (x : BitVec 10) (lo : BitVec 4) :
    w = halfwordRegWord c p x lo ↔
    condOf w = c ∧ w.extractLsb' 25 3 = 0#3 ∧ w.extractLsb' 23 2 = p ∧ w.getLsbD 22 = false
      ∧ w.extractLsb' 12 10 = x ∧ w.extractLsb' 4 8 = 0b00001011#8 ∧ w.extractLsb' 0 4 = lo := by
  refine (eq_append_iff (n := 4 + 3 + 2 + 1 + 10 + 8) (m := 4) _ _).trans ?_
  simp only [slice_eq_append_iff, condOf_eq_iff, slice_one_eq_zero_iff, and_assoc, -Nat.reduceAdd]

theorem halfwordImmWord_eq_iff (p : BitVec 2) (x : BitVec 14) (lo : BitVec 4) :
    w = halfwordImmWord c p x lo ↔
    condOf w = c ∧ w.extractLsb' 25 3 = 0#3 ∧ w.extractLsb' 23 2 = p ∧ w.getLsbD 22 = true
      ∧ w.extractLsb' 8 14 = x ∧ w.extractLsb' 4 4 = 0b1011#4 ∧ w.extractLsb' 0 4 = lo := by
  refine (eq_append_iff (n := 4 + 3 + 2 + 1 + 14 + 4) (m := 4) _ _).trans ?_
  simp only [slice_eq_append_iff, condOf_eq_iff, slice_one_eq_one_iff, and_assoc, -Nat.reduceAdd]

theorem signedWord_eq_iff (x : BitVec 17) (b : Bool) (lo : BitVec 4) : w = signedWord c x b lo ↔
    condOf w = c ∧ w.extractLsb' 25 3 = 0#3 ∧ w.extractLsb' 8 17 = x ∧ w.extractLsb' 6 2 = 0b11#2
      ∧ w.getLsbD 5 = b ∧ w.getLsbD 4 = true ∧ w.extractLsb' 0 4 = lo := by
  refine (eq_append_iff (n := 4 + 3 + 17 + 2 + 1 + 1) (m := 4) _ _).trans ?_
  simp only [slice_eq_append_iff, condOf_eq_iff, slice_one_eq_ofBool_iff, slice_one_eq_one_iff,
    and_assoc, -Nat.reduceAdd]

theorem dpWord_eq_iff (op : DpOpcode) (f : Bool) (rn rd : BitVec 4) (op2 : Op2Form) :
    w = dpWord c op f rn rd op2 ↔
    condOf w = c ∧ w.extractLsb' 26 2 = 0#2 ∧ dpOpcodeName (w.extractLsb' 21 4) = op ∧ w.getLsbD 20 = f
      ∧ w.extractLsb' 16 4 = rn ∧ w.extractLsb' 12 4 = rd ∧ op2Of w = op2 := by
  refine (eq_append_iff (n := 4 + 2 + 1 + 4 + 1 + 4 + 4) (m := 12) _ _).trans ?_
  simp only [slice_eq_append_iff, condOf_eq_iff, slice_one_eq_ofBool_iff, dpOpcodeName_eq_iff,
    op2Of_eq_iff, and_assoc, -Nat.reduceAdd]
  tauto

theorem lsWord_eq_iff (op : LsOpcode) (p u b wb : Bool) (rn rd : BitVec 4) (off : OffsetForm) :
    w = lsWord c op p u b wb rn rd off ↔
    condOf w = c ∧ w.extractLsb' 26 2 = 0b01#2 ∧ w.getLsbD 24 = p ∧ w.getLsbD 23 = u ∧ w.getLsbD 22 = b
      ∧ w.getLsbD 21 = wb ∧ lsOpcodeName (w.getLsbD 20) = op ∧ w.extractLsb' 16 4 = rn
      ∧ w.extractLsb' 12 4 = rd ∧ offsetOf w = off := by
  refine (eq_append_iff (n := 4 + 2 + 1 + 1 + 1 + 1 + 1 + 1 + 4 + 4) (m := 12) _ _).trans ?_
  simp only [slice_eq_append_iff, condOf_eq_iff, slice_one_eq_ofBool_iff, lsOpcodeName_eq_iff,
    offsetOf_eq_iff, and_assoc, -Nat.reduceAdd]
  tauto

theorem undefinedWord_eq_iff (x : BitVec 20) (lo : BitVec 4) : w = undefinedWord c x lo ↔
    condOf w = c ∧ w.extractLsb' 25 3 = 0b011#3 ∧ w.extractLsb' 5 20 = x ∧ w.getLsbD 4 = true
      ∧ w.extractLsb' 0 4 = lo := by
  refine (eq_append_iff (n := 4 + 3 + 20 + 1) (m := 4) _ _).trans ?_
  simp only [slice_eq_append_iff, condOf_eq_iff, slice_one_eq_one_iff, and_assoc, -Nat.reduceAdd]

theorem blockTransferWord_eq_iff (p : BitVec 2) (x : BitVec 22) : w = blockTransferWord c p x ↔
    condOf w = c ∧ w.extractLsb' 25 3 = 0b100#3 ∧ w.extractLsb' 23 2 = p ∧ w.getLsbD 22 = false
      ∧ w.extractLsb' 0 22 = x := by
  refine (eq_append_iff (n := 4 + 3 + 2 + 1) (m := 22) _ _).trans ?_
  simp only [slice_eq_append_iff, condOf_eq_iff, slice_one_eq_zero_iff, and_assoc, -Nat.reduceAdd]

theorem branchWord_eq_iff (l : Bool) (off : BitVec 24) : w = branchWord c l off ↔
    condOf w = c ∧ w.extractLsb' 25 3 = 0b101#3 ∧ w.getLsbD 24 = l ∧ w.extractLsb' 0 24 = off := by
  refine (eq_append_iff (n := 4 + 3 + 1) (m := 24) _ _).trans ?_
  simp only [slice_eq_append_iff, condOf_eq_iff, slice_one_eq_ofBool_iff, and_assoc, -Nat.reduceAdd]

theorem coprocDataTransferWord_eq_iff (x : BitVec 25) : w = coprocDataTransferWord c x ↔
    condOf w = c ∧ w.extractLsb' 25 3 = 0b110#3 ∧ w.extractLsb' 0 25 = x := by
  refine (eq_append_iff (n := 4 + 3) (m := 25) _ _).trans ?_
  simp only [slice_eq_append_iff, condOf_eq_iff, and_assoc, -Nat.reduceAdd]

theorem coprocDataOpWord_eq_iff (x : BitVec 19) (lo : BitVec 4) : w = coprocDataOpWord c x lo ↔
    condOf w = c ∧ w.extractLsb' 24 4 = 0b1110#4 ∧ w.extractLsb' 5 19 = x ∧ w.getLsbD 4 = false
      ∧ w.extractLsb' 0 4 = lo := by
  refine (eq_append_iff (n := 4 + 4 + 19 + 1) (m := 4) _ _).trans ?_
  simp only [slice_eq_append_iff, condOf_eq_iff, slice_one_eq_zero_iff, and_assoc, -Nat.reduceAdd]

theorem coprocRegTransferWord_eq_iff (x : BitVec 19) (lo : BitVec 4) :
    w = coprocRegTransferWord c x lo ↔
    condOf w = c ∧ w.extractLsb' 24 4 = 0b1110#4 ∧ w.extractLsb' 5 19 = x ∧ w.getLsbD 4 = true
      ∧ w.extractLsb' 0 4 = lo := by
  refine (eq_append_iff (n := 4 + 4 + 19 + 1) (m := 4) _ _).trans ?_
  simp only [slice_eq_append_iff, condOf_eq_iff, slice_one_eq_one_iff, and_assoc, -Nat.reduceAdd]

theorem softwareInterruptWord_eq_iff (x : BitVec 24) : w = softwareInterruptWord c x ↔
    condOf w = c ∧ w.extractLsb' 24 4 = 0b1111#4 ∧ w.extractLsb' 0 24 = x := by
  refine (eq_append_iff (n := 4 + 4) (m := 24) _ _).trans ?_
  simp only [slice_eq_append_iff, condOf_eq_iff, and_assoc, -Nat.reduceAdd]

theorem holeWord_eq_iff (p : BitVec 2) (x : BitVec 22) : w = holeWord c p x ↔
    condOf w = c ∧ w.extractLsb' 25 3 = 0b100#3 ∧ w.extractLsb' 23 2 = p ∧ w.getLsbD 22 = true
      ∧ w.extractLsb' 0 22 = x := by
  refine (eq_append_iff (n := 4 + 3 + 2 + 1) (m := 22) _ _).trans ?_
  simp only [slice_eq_append_iff, condOf_eq_iff, slice_one_eq_one_iff, and_assoc, -Nat.reduceAdd]

end

end Sys2Proof.Machine
end

section
/-! PROOFS. The decoder by rows: the row that the classifier names is the row that the decoder reads, and in each
row the decoder reads back what the encoder writes (`30_encoding.md` sections 3, 4 and 9). -/

namespace Sys2Proof.Machine

/-! ## The row of a classification -/

/-- The instruction that a row's fields of `w` are; the error stands for the hole's row. -/
def rowInstr (w : Word) : Result InstructionFormat → Instr
  | .ok .multiply => .multiply (condOf w) (w.extractLsb' 8 14) (w.extractLsb' 0 4)
  | .ok .multiplyLong => multiplyLongOf w
  | .ok .branchAndExchange => .branchAndExchange (condOf w) (w.extractLsb' 0 4)
  | .ok .singleDataSwap =>
    .singleDataSwap (condOf w) (w.getLsbD 22) (w.extractLsb' 12 8) (w.extractLsb' 0 4)
  | .ok .halfwordDataTransferReg =>
    .halfwordDataTransferReg (condOf w) (w.extractLsb' 23 2) (w.extractLsb' 12 10)
      (w.extractLsb' 0 4)
  | .ok .halfwordDataTransferImm =>
    .halfwordDataTransferImm (condOf w) (w.extractLsb' 23 2) (w.extractLsb' 8 14)
      (w.extractLsb' 0 4)
  | .ok .signedDataTransfer =>
    .signedDataTransfer (condOf w) (w.extractLsb' 8 17) (w.getLsbD 5) (w.extractLsb' 0 4)
  | .ok .dataProcessingPsr => dataProcessingOf w
  | .ok .loadStore => loadStoreOf w
  | .ok .undefined => .undefined (condOf w) (w.extractLsb' 5 20) (w.extractLsb' 0 4)
  | .ok .blockDataTransfer =>
    .blockDataTransfer (condOf w) (w.extractLsb' 23 2) (w.extractLsb' 0 22)
  | .ok .branch => .ofLink (w.getLsbD 24) (condOf w) (w.extractLsb' 0 24)
  | .ok .coprocDataTransfer => .coprocDataTransfer (condOf w) (w.extractLsb' 0 25)
  | .ok .coprocDataOp => .coprocDataOp (condOf w) (w.extractLsb' 5 19) (w.extractLsb' 0 4)
  | .ok .coprocRegTransfer =>
    .coprocRegTransfer (condOf w) (w.extractLsb' 5 19) (w.extractLsb' 0 4)
  | .ok .softwareInterrupt => .softwareInterrupt (condOf w) (w.extractLsb' 0 24)
  | .err _ => .unclassifiedInstruction (condOf w) (w.extractLsb' 23 2) (w.extractLsb' 0 22)

/-- A row by its mask and match, the form that the decoder tests. -/
def maskedRow (f : InstructionFormat) : (Word → Bool) × InstructionFormat :=
  (rowMatches (rowMask f) (rowMatch f), f)

/-- The decoder's tests are the classifier's predicates, in the same order. -/
theorem predicateTable_eq_maskedRows :
    predicateTable = (predicateTable.map Prod.snd).map maskedRow := by
  rw [List.map_map]
  refine (List.map_id _).symm.trans (List.map_congr_left fun ⟨P, f⟩ hr => ?_)
  obtain ⟨n, hn⟩ := List.mem_iff_getElem?.mp hr
  refine Prod.ext (funext fun w => ?_) rfl
  rw [Bool.eq_iff_iff]
  exact (predicate_iff_masked hn w).trans beq_iff_eq.symm

theorem rowInstr_firstMatch_cons (w : Word) (f : InstructionFormat)
    (rows : List ((Word → Bool) × InstructionFormat)) :
    rowInstr w (firstMatch w (maskedRow f :: rows)) =
      if rowMatches (rowMask f) (rowMatch f) w then rowInstr w (.ok f)
      else rowInstr w (firstMatch w rows) :=
  apply_ite (rowInstr w) _ _ _

/-- The decoder reads the row that the classifier names. -/
theorem decodeWord_eq_rowInstr (w : Word) : decodeWord w = rowInstr w (classify w) := by
  have hformats : predicateTable.map Prod.snd = [.multiply, .multiplyLong, .branchAndExchange,
      .singleDataSwap, .halfwordDataTransferReg, .halfwordDataTransferImm, .signedDataTransfer,
      .dataProcessingPsr, .loadStore, .undefined, .blockDataTransfer, .branch,
      .coprocDataTransfer, .coprocDataOp, .coprocRegTransfer, .softwareInterrupt] := rfl
  rw [classify, predicateTable_eq_maskedRows, hformats]
  simp only [List.map_cons, List.map_nil, rowInstr_firstMatch_cons]
  rfl

theorem decodeWord_of_classify {w : Word} {r : Result InstructionFormat} (h : classify w = r) :
    decodeWord w = rowInstr w r := by
  rw [decodeWord_eq_rowInstr, h]

/-! ## The row of the decoded instruction -/

@[simp] theorem rowFormat_ofDpOpcode (op : DpOpcode) (c : ConditionCode) (f : Bool)
    (rn rd : BitVec 4) (op2 : Op2Form) :
    (Instr.ofDpOpcode op c f rn rd op2).rowFormat = some .dataProcessingPsr := by
  cases op <;> rfl

@[simp] theorem rowFormat_ofLsOpcode (op : LsOpcode) (c : ConditionCode) (p u b wb : Bool)
    (rn rd : BitVec 4) (off : OffsetForm) :
    (Instr.ofLsOpcode op c p u b wb rn rd off).rowFormat = some .loadStore := by
  cases op <;> rfl

@[simp] theorem rowFormat_ofLink (l : Bool) (c : ConditionCode) (off : BitVec 24) :
    (Instr.ofLink l c off).rowFormat = some .branch := by
  cases l <;> rfl

@[simp] theorem rowFormat_ofMultiplyLongBits (u a : Bool) (c : ConditionCode) (f : Bool)
    (hi lo m n : BitVec 4) :
    (Instr.ofMultiplyLongBits u a c f hi lo m n).rowFormat = some .multiplyLong := by
  cases u <;> cases a <;> rfl

/-- The instruction read in a row is of that row. -/
theorem rowFormat_rowInstr (w : Word) (f : InstructionFormat) :
    (rowInstr w (.ok f)).rowFormat = some f := by
  cases f with
  | multiplyLong => exact rowFormat_ofMultiplyLongBits ..
  | dataProcessingPsr => exact rowFormat_ofDpOpcode ..
  | loadStore => exact rowFormat_ofLsOpcode ..
  | branch => exact rowFormat_ofLink ..
  | _ => rfl

/-- Settles O16: the decoder reads the row that the classifier names (`decodeWord_eq_rowInstr`), and what it
reads there is of that row. -/
theorem decodedRowIsTheClassification : Obligations.DecodedRowIsTheClassification := by
  intro w
  rw [decodeWord_eq_rowInstr]
  cases h : classify w with
  | ok f => rw [rowFormat_rowInstr]
  | err e => rw [eq_unclassified_of_firstMatch_eq_err h]; rfl

/-! ## Encoding what was decoded -/

@[simp] theorem encode_ofDpOpcode (op : DpOpcode) (c : ConditionCode) (f : Bool)
    (rn rd : BitVec 4) (op2 : Op2Form) :
    encode (Instr.ofDpOpcode op c f rn rd op2) = dpWord c op f rn rd op2 := by
  cases op <;> rfl

@[simp] theorem encode_ofLsOpcode (op : LsOpcode) (c : ConditionCode) (p u b wb : Bool)
    (rn rd : BitVec 4) (off : OffsetForm) :
    encode (Instr.ofLsOpcode op c p u b wb rn rd off) = lsWord c op p u b wb rn rd off := by
  cases op <;> rfl

@[simp] theorem encode_ofLink (l : Bool) (c : ConditionCode) (off : BitVec 24) :
    encode (Instr.ofLink l c off) = branchWord c l off := by
  cases l <;> rfl

@[simp] theorem encode_ofMultiplyLongBits (u a : Bool) (c : ConditionCode) (f : Bool)
    (hi lo m n : BitVec 4) :
    encode (Instr.ofMultiplyLongBits u a c f hi lo m n) = mlWord c u a f hi lo m n := by
  cases u <;> cases a <;> rfl

/-- In each row the decoded operands and the row's fixed bits are the whole word. -/
theorem encode_rowInstr {w : Word} {r : Result InstructionFormat} (h : classify w = r) :
    encode (rowInstr w r) = w := by
  cases r with
  | err e =>
    cases eq_unclassified_of_firstMatch_eq_err h
    obtain ⟨⟨htop, h22⟩, -⟩ := classify_eq_unclassified_iff.mp h
    exact ((holeWord_eq_iff _ _ _).mpr ⟨rfl, htop, rfl, h22, rfl⟩).symm
  | ok f =>
    cases f with
    | multiply =>
      obtain ⟨htop, hlow⟩ := (isMultiply_iff w).mp (predicate_of_classify (n := 0) rfl h)
      exact ((multiplyWord_eq_iff _ _ _).mpr ⟨rfl, htop, rfl, hlow, rfl⟩).symm
    | multiplyLong =>
      obtain ⟨htop, hlow⟩ := (isMultiplyLong_iff w).mp (predicate_of_classify (n := 1) rfl h)
      exact (encode_ofMultiplyLongBits ..).trans ((mlWord_eq_iff ..).mpr
        ⟨rfl, htop, rfl, rfl, rfl, rfl, rfl, rfl, hlow, rfl⟩).symm
    | branchAndExchange =>
      have hbx := (isBranchAndExchange_iff w).mp (predicate_of_classify (n := 2) rfl h)
      exact ((bxWord_eq_iff ..).mpr ⟨rfl, hbx, rfl⟩).symm
    | singleDataSwap =>
      obtain ⟨htop, h2120, hlow⟩ := (isSingleDataSwap_iff w).mp (predicate_of_classify (n := 3) rfl h)
      exact ((swapWord_eq_iff ..).mpr ⟨rfl, htop, rfl, h2120, rfl, hlow, rfl⟩).symm
    | halfwordDataTransferReg =>
      obtain ⟨htop, h22, hlow⟩ := (isHalfwordDataTransferReg_iff w).mp (predicate_of_classify (n := 4) rfl h)
      exact ((halfwordRegWord_eq_iff ..).mpr ⟨rfl, htop, rfl, h22, rfl, hlow, rfl⟩).symm
    | halfwordDataTransferImm =>
      obtain ⟨htop, h22, hlow⟩ := (isHalfwordDataTransferImm_iff w).mp (predicate_of_classify (n := 5) rfl h)
      exact ((halfwordImmWord_eq_iff ..).mpr ⟨rfl, htop, rfl, h22, rfl, hlow, rfl⟩).symm
    | signedDataTransfer =>
      obtain ⟨htop, h76, h4⟩ := (isSignedDataTransfer_iff w).mp (predicate_of_classify (n := 6) rfl h)
      exact ((signedWord_eq_iff ..).mpr ⟨rfl, htop, rfl, h76, rfl, h4, rfl⟩).symm
    | dataProcessingPsr =>
      have htop := (isDataProcessingPsr_iff w).mp (predicate_of_classify (n := 7) rfl h)
      exact (encode_ofDpOpcode ..).trans
        ((dpWord_eq_iff ..).mpr ⟨rfl, htop, rfl, rfl, rfl, rfl, rfl⟩).symm
    | loadStore =>
      have htop := (isLoadStore_iff w).mp (predicate_of_classify (n := 8) rfl h)
      exact (encode_ofLsOpcode ..).trans ((lsWord_eq_iff ..).mpr
        ⟨rfl, htop, rfl, rfl, rfl, rfl, rfl, rfl, rfl, rfl⟩).symm
    | undefined => exact absurd h classify_ne_undefined
    | blockDataTransfer =>
      obtain ⟨htop, h22⟩ := (isBlockDataTransfer_iff w).mp (predicate_of_classify (n := 10) rfl h)
      exact ((blockTransferWord_eq_iff ..).mpr ⟨rfl, htop, rfl, h22, rfl⟩).symm
    | branch =>
      have htop := (isBranch_iff w).mp (predicate_of_classify (n := 11) rfl h)
      exact (encode_ofLink ..).trans ((branchWord_eq_iff ..).mpr ⟨rfl, htop, rfl, rfl⟩).symm
    | coprocDataTransfer =>
      have htop := (isCoprocDataTransfer_iff w).mp (predicate_of_classify (n := 12) rfl h)
      exact ((coprocDataTransferWord_eq_iff ..).mpr ⟨rfl, htop, rfl⟩).symm
    | coprocDataOp =>
      obtain ⟨htop, h4⟩ := (isCoprocDataOp_iff w).mp (predicate_of_classify (n := 13) rfl h)
      exact ((coprocDataOpWord_eq_iff ..).mpr ⟨rfl, htop, rfl, h4, rfl⟩).symm
    | coprocRegTransfer =>
      obtain ⟨htop, h4⟩ := (isCoprocRegTransfer_iff w).mp (predicate_of_classify (n := 14) rfl h)
      exact ((coprocRegTransferWord_eq_iff ..).mpr ⟨rfl, htop, rfl, h4, rfl⟩).symm
    | softwareInterrupt =>
      have htop := (isSoftwareInterrupt_iff w).mp (predicate_of_classify (n := 15) rfl h)
      exact ((softwareInterruptWord_eq_iff ..).mpr ⟨rfl, htop, rfl⟩).symm

@[simp] theorem encode_decodeWord (w : Word) : encode (decodeWord w) = w := by
  rw [decodeWord_eq_rowInstr, encode_rowInstr rfl]

end Sys2Proof.Machine
end

section
/-! PROOFS. The words of the encoder: the row each is classified as, and the instruction each decodes to
(`30_encoding.md` section 9, `41_format_classifier.md` R89). -/

namespace Sys2Proof.Machine

section
variable (c : ConditionCode)

/-! ## The rows that no earlier row can take a word from -/

@[simp] theorem classify_multiplyWord (x : BitVec 14) (lo : BitVec 4) :
    classify (multiplyWord c x lo) = .ok .multiply := by
  obtain ⟨-, htop, -, hlow, -⟩ := (multiplyWord_eq_iff c x lo).mp rfl
  exact classify_of_predicate (n := 0) rfl (by decide) ((isMultiply_iff _).mpr ⟨htop, hlow⟩)

theorem decodeWord_multiplyWord (x : BitVec 14) (lo : BitVec 4) :
    decodeWord (multiplyWord c x lo) = .multiply c x lo := by
  obtain ⟨hc, -, hx, -, hlo⟩ := (multiplyWord_eq_iff c x lo).mp rfl
  refine (decodeWord_of_classify (classify_multiplyWord c x lo)).trans ?_
  show Instr.multiply _ _ _ = _
  rw [hc, hx, hlo]

@[simp] theorem classify_mlWord (u a f : Bool) (hi lo m n : BitVec 4) :
    classify (mlWord c u a f hi lo m n) = .ok .multiplyLong := by
  obtain ⟨-, htop, -, -, -, -, -, -, hlow, -⟩ := (mlWord_eq_iff c u a f hi lo m n).mp rfl
  exact classify_of_predicate (n := 1) rfl (by decide) ((isMultiplyLong_iff _).mpr ⟨htop, hlow⟩)

theorem decodeWord_mlWord (u a f : Bool) (hi lo m n : BitVec 4) :
    decodeWord (mlWord c u a f hi lo m n) = .ofMultiplyLongBits u a c f hi lo m n := by
  obtain ⟨hc, -, hu, ha, hf, hhi, hlo, hm, -, hn⟩ := (mlWord_eq_iff c u a f hi lo m n).mp rfl
  refine (decodeWord_of_classify (classify_mlWord c u a f hi lo m n)).trans ?_
  show Instr.ofMultiplyLongBits _ _ _ _ _ _ _ _ = _
  rw [hc, hu, ha, hf, hhi, hlo, hm, hn]

@[simp] theorem classify_bxWord (t : BitVec 4) :
    classify (bxWord c t) = .ok .branchAndExchange := by
  obtain ⟨-, hbx, -⟩ := (bxWord_eq_iff c t).mp rfl
  exact classify_of_predicate (n := 2) rfl (by decide) ((isBranchAndExchange_iff _).mpr hbx)

theorem decodeWord_bxWord (t : BitVec 4) :
    decodeWord (bxWord c t) = .branchAndExchange c t := by
  obtain ⟨hc, -, ht⟩ := (bxWord_eq_iff c t).mp rfl
  refine (decodeWord_of_classify (classify_bxWord c t)).trans ?_
  show Instr.branchAndExchange _ _ = _
  rw [hc, ht]

@[simp] theorem classify_swapWord (b : Bool) (x : BitVec 8) (lo : BitVec 4) :
    classify (swapWord c b x lo) = .ok .singleDataSwap := by
  obtain ⟨-, htop, -, h2120, -, hlow, -⟩ := (swapWord_eq_iff c b x lo).mp rfl
  exact classify_of_predicate (n := 3) rfl (by decide) ((isSingleDataSwap_iff _).mpr ⟨htop, h2120, hlow⟩)

theorem decodeWord_swapWord (b : Bool) (x : BitVec 8) (lo : BitVec 4) :
    decodeWord (swapWord c b x lo) = .singleDataSwap c b x lo := by
  obtain ⟨hc, -, hb, -, hx, -, hlo⟩ := (swapWord_eq_iff c b x lo).mp rfl
  refine (decodeWord_of_classify (classify_swapWord c b x lo)).trans ?_
  show Instr.singleDataSwap _ _ _ _ = _
  rw [hc, hb, hx, hlo]

@[simp] theorem classify_halfwordRegWord (p : BitVec 2) (x : BitVec 10) (lo : BitVec 4) :
    classify (halfwordRegWord c p x lo) = .ok .halfwordDataTransferReg := by
  obtain ⟨-, htop, -, h22, -, hlow, -⟩ := (halfwordRegWord_eq_iff c p x lo).mp rfl
  exact classify_of_predicate (n := 4) rfl (by decide) ((isHalfwordDataTransferReg_iff _).mpr ⟨htop, h22, hlow⟩)

theorem decodeWord_halfwordRegWord (p : BitVec 2) (x : BitVec 10) (lo : BitVec 4) :
    decodeWord (halfwordRegWord c p x lo) = .halfwordDataTransferReg c p x lo := by
  obtain ⟨hc, -, hp, -, hx, -, hlo⟩ := (halfwordRegWord_eq_iff c p x lo).mp rfl
  refine (decodeWord_of_classify (classify_halfwordRegWord c p x lo)).trans ?_
  show Instr.halfwordDataTransferReg _ _ _ _ = _
  rw [hc, hp, hx, hlo]

@[simp] theorem classify_halfwordImmWord (p : BitVec 2) (x : BitVec 14) (lo : BitVec 4) :
    classify (halfwordImmWord c p x lo) = .ok .halfwordDataTransferImm := by
  obtain ⟨-, htop, -, h22, -, hlow, -⟩ := (halfwordImmWord_eq_iff c p x lo).mp rfl
  exact classify_of_predicate (n := 5) rfl (by decide) ((isHalfwordDataTransferImm_iff _).mpr ⟨htop, h22, hlow⟩)

theorem decodeWord_halfwordImmWord (p : BitVec 2) (x : BitVec 14) (lo : BitVec 4) :
    decodeWord (halfwordImmWord c p x lo) = .halfwordDataTransferImm c p x lo := by
  obtain ⟨hc, -, hp, -, hx, -, hlo⟩ := (halfwordImmWord_eq_iff c p x lo).mp rfl
  refine (decodeWord_of_classify (classify_halfwordImmWord c p x lo)).trans ?_
  show Instr.halfwordDataTransferImm _ _ _ _ = _
  rw [hc, hp, hx, hlo]

@[simp] theorem classify_signedWord (x : BitVec 17) (b : Bool) (lo : BitVec 4) :
    classify (signedWord c x b lo) = .ok .signedDataTransfer := by
  obtain ⟨-, htop, -, h76, -, h4, -⟩ := (signedWord_eq_iff c x b lo).mp rfl
  exact classify_of_predicate (n := 6) rfl (by decide) ((isSignedDataTransfer_iff _).mpr ⟨htop, h76, h4⟩)

theorem decodeWord_signedWord (x : BitVec 17) (b : Bool) (lo : BitVec 4) :
    decodeWord (signedWord c x b lo) = .signedDataTransfer c x b lo := by
  obtain ⟨hc, -, hx, -, hb, -, hlo⟩ := (signedWord_eq_iff c x b lo).mp rfl
  refine (decodeWord_of_classify (classify_signedWord c x b lo)).trans ?_
  show Instr.signedDataTransfer _ _ _ _ = _
  rw [hc, hx, hb, hlo]

@[simp] theorem classify_lsWord (op : LsOpcode) (p u b wb : Bool)
    (rn rd : BitVec 4) (off : OffsetForm) :
    classify (lsWord c op p u b wb rn rd off) = .ok .loadStore := by
  obtain ⟨-, htop, -⟩ := (lsWord_eq_iff c op p u b wb rn rd off).mp rfl
  exact classify_of_predicate (n := 8) rfl (by decide) ((isLoadStore_iff _).mpr htop)

theorem decodeWord_lsWord (op : LsOpcode) (p u b wb : Bool) (rn rd : BitVec 4) (off : OffsetForm) :
    decodeWord (lsWord c op p u b wb rn rd off) = .ofLsOpcode op c p u b wb rn rd off := by
  obtain ⟨hc, -, hp, hu, hb, hwb, hop, hrn, hrd, hoff⟩ := (lsWord_eq_iff c op p u b wb rn rd off).mp rfl
  refine (decodeWord_of_classify (classify_lsWord c op p u b wb rn rd off)).trans ?_
  show Instr.ofLsOpcode _ _ _ _ _ _ _ _ _ = _
  rw [hc, hp, hu, hb, hwb, hop, hrn, hrd, hoff]

@[simp] theorem classify_blockTransferWord (p : BitVec 2) (x : BitVec 22) :
    classify (blockTransferWord c p x) = .ok .blockDataTransfer := by
  obtain ⟨-, htop, -, h22, -⟩ := (blockTransferWord_eq_iff c p x).mp rfl
  exact classify_of_predicate (n := 10) rfl (by decide) ((isBlockDataTransfer_iff _).mpr ⟨htop, h22⟩)

theorem decodeWord_blockTransferWord (p : BitVec 2) (x : BitVec 22) :
    decodeWord (blockTransferWord c p x) = .blockDataTransfer c p x := by
  obtain ⟨hc, -, hp, -, hx⟩ := (blockTransferWord_eq_iff c p x).mp rfl
  refine (decodeWord_of_classify (classify_blockTransferWord c p x)).trans ?_
  show Instr.blockDataTransfer _ _ _ = _
  rw [hc, hp, hx]

@[simp] theorem classify_branchWord (l : Bool) (off : BitVec 24) :
    classify (branchWord c l off) = .ok .branch := by
  obtain ⟨-, htop, -⟩ := (branchWord_eq_iff c l off).mp rfl
  exact classify_of_predicate (n := 11) rfl (by decide) ((isBranch_iff _).mpr htop)

theorem decodeWord_branchWord (l : Bool) (off : BitVec 24) :
    decodeWord (branchWord c l off) = .ofLink l c off := by
  obtain ⟨hc, -, hl, hoff⟩ := (branchWord_eq_iff c l off).mp rfl
  refine (decodeWord_of_classify (classify_branchWord c l off)).trans ?_
  show Instr.ofLink _ _ _ = _
  rw [hc, hl, hoff]

@[simp] theorem classify_coprocDataTransferWord (x : BitVec 25) :
    classify (coprocDataTransferWord c x) = .ok .coprocDataTransfer := by
  obtain ⟨-, htop, -⟩ := (coprocDataTransferWord_eq_iff c x).mp rfl
  exact classify_of_predicate (n := 12) rfl (by decide) ((isCoprocDataTransfer_iff _).mpr htop)

theorem decodeWord_coprocDataTransferWord (x : BitVec 25) :
    decodeWord (coprocDataTransferWord c x) = .coprocDataTransfer c x := by
  obtain ⟨hc, -, hx⟩ := (coprocDataTransferWord_eq_iff c x).mp rfl
  refine (decodeWord_of_classify (classify_coprocDataTransferWord c x)).trans ?_
  show Instr.coprocDataTransfer _ _ = _
  rw [hc, hx]

@[simp] theorem classify_coprocDataOpWord (x : BitVec 19) (lo : BitVec 4) :
    classify (coprocDataOpWord c x lo) = .ok .coprocDataOp := by
  obtain ⟨-, htop, -, h4, -⟩ := (coprocDataOpWord_eq_iff c x lo).mp rfl
  exact classify_of_predicate (n := 13) rfl (by decide) ((isCoprocDataOp_iff _).mpr ⟨htop, h4⟩)

theorem decodeWord_coprocDataOpWord (x : BitVec 19) (lo : BitVec 4) :
    decodeWord (coprocDataOpWord c x lo) = .coprocDataOp c x lo := by
  obtain ⟨hc, -, hx, -, hlo⟩ := (coprocDataOpWord_eq_iff c x lo).mp rfl
  refine (decodeWord_of_classify (classify_coprocDataOpWord c x lo)).trans ?_
  show Instr.coprocDataOp _ _ _ = _
  rw [hc, hx, hlo]

@[simp] theorem classify_coprocRegTransferWord (x : BitVec 19) (lo : BitVec 4) :
    classify (coprocRegTransferWord c x lo) = .ok .coprocRegTransfer := by
  obtain ⟨-, htop, -, h4, -⟩ := (coprocRegTransferWord_eq_iff c x lo).mp rfl
  exact classify_of_predicate (n := 14) rfl (by decide) ((isCoprocRegTransfer_iff _).mpr ⟨htop, h4⟩)

theorem decodeWord_coprocRegTransferWord (x : BitVec 19) (lo : BitVec 4) :
    decodeWord (coprocRegTransferWord c x lo) = .coprocRegTransfer c x lo := by
  obtain ⟨hc, -, hx, -, hlo⟩ := (coprocRegTransferWord_eq_iff c x lo).mp rfl
  refine (decodeWord_of_classify (classify_coprocRegTransferWord c x lo)).trans ?_
  show Instr.coprocRegTransfer _ _ _ = _
  rw [hc, hx, hlo]

@[simp] theorem classify_softwareInterruptWord (x : BitVec 24) :
    classify (softwareInterruptWord c x) = .ok .softwareInterrupt := by
  obtain ⟨-, htop, -⟩ := (softwareInterruptWord_eq_iff c x).mp rfl
  exact classify_of_predicate (n := 15) rfl (by decide) ((isSoftwareInterrupt_iff _).mpr htop)

theorem decodeWord_softwareInterruptWord (x : BitVec 24) :
    decodeWord (softwareInterruptWord c x) = .softwareInterrupt c x := by
  obtain ⟨hc, -, hx⟩ := (softwareInterruptWord_eq_iff c x).mp rfl
  refine (decodeWord_of_classify (classify_softwareInterruptWord c x)).trans ?_
  show Instr.softwareInterrupt _ _ = _
  rw [hc, hx]

/-- A word of the shadowed row is a `LoadStore` word (R82). -/
theorem classify_undefinedWord (x : BitVec 20) (lo : BitVec 4) :
    classify (undefinedWord c x lo) = .ok .loadStore := by
  obtain ⟨-, htop, -, h4, -⟩ := (undefinedWord_eq_iff c x lo).mp rfl
  exact classify_of_isUndefined ((isUndefined_iff _).mpr ⟨htop, h4⟩)

theorem classify_holeWord (p : BitVec 2) (x : BitVec 22) :
    classify (holeWord c p x) = .err (.unclassifiedInstruction (holeWord c p x)) := by
  obtain ⟨-, htop, -, h22, -⟩ := (holeWord_eq_iff c p x).mp rfl
  exact classify_of_hole htop h22

theorem decodeWord_holeWord (p : BitVec 2) (x : BitVec 22) :
    decodeWord (holeWord c p x) = .unclassifiedInstruction c p x := by
  obtain ⟨hc, -, hp, -, hx⟩ := (holeWord_eq_iff c p x).mp rfl
  refine (decodeWord_of_classify (classify_holeWord c p x)).trans ?_
  show Instr.unclassifiedInstruction _ _ _ = _
  rw [hc, hp, hx]

end

/-! ## The indirect form of a data-processing word against rows 1 to 7 -/

section
variable {w : Word} {c : ConditionCode} {op : DpOpcode} {f : Bool} {rn rd : BitVec 4} {reg : BitVec 5}
  {ty : BitVec 2} {low : BitVec 4}

/-- The fields of an indirect form, down to bit 4; rows 1 to 7 read no lower bit. -/
theorem slices_of_indirect (hw : w = dpWord c op f rn rd (.indirect reg ty low)) :
    w.extractLsb' 25 3 = 0#3 ∧ w.extractLsb' 21 4 = op.bits ∧ w.getLsbD 20 = f
      ∧ w.extractLsb' 16 4 = rn ∧ w.extractLsb' 12 4 = rd ∧ w.extractLsb' 7 5 = reg
      ∧ w.extractLsb' 5 2 = ty ∧ w.getLsbD 4 = true := by
  obtain ⟨-, htop, hop, hf, hrn, hrd, hop2⟩ := (dpWord_eq_iff ..).mp hw
  obtain ⟨h25, hlow⟩ := op2Of_eq_iff.mp hop2
  obtain ⟨hreg, hty, h4, -⟩ := (bits11_0_eq_iff ..).mp hlow
  exact ⟨(bits27_25_eq_iff 0#2 false).mpr ⟨htop, h25⟩, dpOpcodeName_eq_iff.mp hop, hf, hrn, hrd,
    hreg, hty, slice_one_eq_one_iff.mp h4⟩

/-- The pattern of row 3 in the fields of a data-processing word. -/
theorem bits27_4_eq_branchExchange_iff : w.extractLsb' 4 24 = 0x12FFF1#24 ↔
    w.extractLsb' 25 3 = 0#3 ∧ w.extractLsb' 21 4 = 0b1001#4 ∧ w.getLsbD 20 = false
      ∧ w.extractLsb' 16 4 = 0xF#4 ∧ w.extractLsb' 12 4 = 0xF#4 ∧ w.extractLsb' 7 5 = 0b11110#5
      ∧ w.extractLsb' 5 2 = 0b00#2 ∧ w.getLsbD 4 = true := by
  refine (slice_eq_append_iff (n := 3 + 4 + 1 + 4 + 4 + 5 + 2) (m := 1)
    (0#3 ++ 0b1001#4 ++ 0#1 ++ 0xF#4 ++ 0xF#4 ++ 0b11110#5 ++ 0b00#2) 1#1).trans ?_
  simp only [slice_eq_append_iff, slice_one_eq_zero_iff, slice_one_eq_one_iff, and_assoc, -Nat.reduceAdd]

variable (hw : w = dpWord c op f rn rd (.indirect reg ty low))
include hw

theorem bits27_22_of_indirect (v : BitVec 3) :
    w.extractLsb' 22 6 = 0#3 ++ v ↔ op.bits.extractLsb' 1 3 = v := by
  obtain ⟨htop, hop, -⟩ := slices_of_indirect hw
  have hop3 : w.extractLsb' 22 3 = op.bits.extractLsb' 1 3 := subslice_of_slice hop 1 3 (by decide)
  rw [← hop3]
  exact (slice_eq_append_iff (n := 3) (m := 3) 0#3 v).trans (and_iff_right htop)

theorem bits27_23_of_indirect (v : BitVec 2) :
    w.extractLsb' 23 5 = 0#3 ++ v ↔ op.bits.extractLsb' 2 2 = v := by
  obtain ⟨htop, hop, -⟩ := slices_of_indirect hw
  have hop2 : w.extractLsb' 23 2 = op.bits.extractLsb' 2 2 := subslice_of_slice hop 2 2 (by decide)
  rw [← hop2]
  exact (slice_eq_append_iff (n := 3) (m := 2) 0#3 v).trans (and_iff_right htop)

theorem bits11_4_of_indirect (r : BitVec 5) (t : BitVec 2) :
    w.extractLsb' 4 8 = r ++ t ++ 1#1 ↔ reg = r ∧ ty = t := by
  obtain ⟨-, -, -, -, -, rfl, rfl, h4⟩ := slices_of_indirect hw
  refine (slice_eq_append_iff (n := 5 + 2) (m := 1) (r ++ t) 1#1).trans ?_
  rw [slice_one_eq_one_iff, and_iff_left h4]
  exact slice_eq_append_iff r t

theorem bits7_4_of_indirect (b : Bool) (t : BitVec 2) :
    w.extractLsb' 4 4 = BitVec.ofBool b ++ t ++ 1#1 ↔ reg.getLsbD 0 = b ∧ ty = t := by
  obtain ⟨-, -, -, -, -, hreg, rfl, h4⟩ := slices_of_indirect hw
  have h7 : w.getLsbD 7 = reg.getLsbD 0 := getLsbD_of_slice hreg 0 (by decide)
  refine (slice_eq_append_iff (n := 1 + 2) (m := 1) (BitVec.ofBool b ++ t) 1#1).trans ?_
  rw [slice_one_eq_one_iff, and_iff_left h4, ← h7, ← slice_one_eq_ofBool_iff]
  exact slice_eq_append_iff (BitVec.ofBool b) t

theorem isMultiply_indirect : isMultiply w = WellFormed.takenByMultiply op reg ty := by
  have hop : op.bits.extractLsb' 1 3 = 0#3 ↔ [DpOpcode.AND, .EOR].contains op = true := by
    cases op <;> decide
  have htop := (bits27_22_of_indirect hw 0#3).trans hop
  have hlow := bits7_4_of_indirect hw true 0b00#2
  rw [Bool.eq_iff_iff, isMultiply_iff, WellFormed.takenByMultiply, Bool.and_eq_true,
    Bool.and_eq_true, beq_iff_eq, and_comm]
  exact and_congr hlow htop

theorem isMultiplyLong_indirect : isMultiplyLong w = WellFormed.takenByMultiplyLong op reg ty := by
  have hop : op.bits.extractLsb' 2 2 = 1#2 ↔
      [DpOpcode.ADD, .ADC, .SBC, .RSC].contains op = true := by
    cases op <;> decide
  have htop := (bits27_23_of_indirect hw 1#2).trans hop
  have hlow := bits7_4_of_indirect hw true 0b00#2
  rw [Bool.eq_iff_iff, isMultiplyLong_iff, WellFormed.takenByMultiplyLong, Bool.and_eq_true,
    Bool.and_eq_true, beq_iff_eq, and_comm]
  exact and_congr hlow htop

theorem isBranchAndExchange_indirect :
    isBranchAndExchange w = WellFormed.takenByBranchAndExchange op f rn rd reg ty := by
  obtain ⟨htop, hop, hf, hrn, hrd, hreg, hty, h4⟩ := slices_of_indirect hw
  have hop' : op.bits = 0b1001#4 ↔ op = .TEQ := by cases op <;> decide
  rw [Bool.eq_iff_iff, isBranchAndExchange_iff, bits27_4_eq_branchExchange_iff, htop, hop, hf, hrn, hrd,
    hreg, hty, h4, hop', WellFormed.takenByBranchAndExchange]
  simp [and_assoc]

theorem isSingleDataSwap_indirect :
    isSingleDataSwap w = WellFormed.takenBySingleDataSwap op f reg ty := by
  obtain ⟨-, hop, hf, -⟩ := slices_of_indirect hw
  have h21 : w.getLsbD 21 = op.bits.getLsbD 0 := getLsbD_of_slice hop 0 (by decide)
  have h2120 : w.extractLsb' 20 2 = 0#2 ↔ op.bits.getLsbD 0 = false ∧ f = false := by
    rw [← h21, ← hf, ← slice_one_eq_zero_iff, ← slice_one_eq_zero_iff]
    exact slice_eq_append_iff 0#1 0#1
  have hop' : op.bits.extractLsb' 2 2 = 2#2 ∧ op.bits.getLsbD 0 = false ↔ op = .TST ∨ op = .CMP := by
    cases op <;> decide
  have htop := bits27_23_of_indirect hw 2#2
  have hlow := bits11_4_of_indirect hw 0b00001#5 0b00#2
  have hrow := isSingleDataSwap_iff w
  rw [h2120] at hrow
  rw [Bool.eq_iff_iff, WellFormed.takenBySingleDataSwap]
  refine hrow.trans ((and_congr htop (and_congr_right' hlow)).trans ?_)
  simp [and_assoc, ← hop']

theorem isHalfwordDataTransferReg_indirect :
    isHalfwordDataTransferReg w = WellFormed.takenByHalfwordReg op reg ty := by
  obtain ⟨htop, hop, -⟩ := slices_of_indirect hw
  have h22 : w.getLsbD 22 = op.bits.getLsbD 1 := getLsbD_of_slice hop 1 (by decide)
  have hop' : op.bits.getLsbD 1 = false ↔
      [DpOpcode.AND, .EOR, .ADD, .ADC, .TST, .TEQ, .ORR, .MOV].contains op = true := by
    cases op <;> decide
  have hlow := bits11_4_of_indirect hw 0b00001#5 0b01#2
  rw [Bool.eq_iff_iff, isHalfwordDataTransferReg_iff, and_iff_right htop, h22, hop',
    WellFormed.takenByHalfwordReg, and_and_eq_true_iff, beq_iff_eq, beq_iff_eq]
  exact and_congr_right' hlow

theorem isHalfwordDataTransferImm_indirect :
    isHalfwordDataTransferImm w = WellFormed.takenByHalfwordImm op reg ty := by
  obtain ⟨htop, hop, -⟩ := slices_of_indirect hw
  have h22 : w.getLsbD 22 = op.bits.getLsbD 1 := getLsbD_of_slice hop 1 (by decide)
  have hop' : op.bits.getLsbD 1 = true ↔
      [DpOpcode.SUB, .RSB, .SBC, .RSC, .CMP, .CMN, .BIC, .MVN].contains op = true := by
    cases op <;> decide
  have hlow := bits7_4_of_indirect hw true 0b01#2
  rw [Bool.eq_iff_iff, isHalfwordDataTransferImm_iff, and_iff_right htop, h22, hop',
    WellFormed.takenByHalfwordImm, and_and_eq_true_iff, beq_iff_eq]
  exact and_congr_right' hlow

theorem isSignedDataTransfer_indirect :
    isSignedDataTransfer w = WellFormed.takenBySigned reg ty := by
  obtain ⟨htop, -, -, -, -, hreg, hty, h4⟩ := slices_of_indirect hw
  have h7 : w.getLsbD 7 = reg.getLsbD 0 := getLsbD_of_slice hreg 0 (by decide)
  have h6 : w.getLsbD 6 = ty.getLsbD 1 := getLsbD_of_slice hty 1 (by decide)
  rw [Bool.eq_iff_iff, isSignedDataTransfer_iff, and_iff_right htop, and_iff_left h4,
    WellFormed.takenBySigned, Bool.and_eq_true, ← h7, ← h6, ← slice_one_eq_one_iff,
    ← slice_one_eq_one_iff]
  exact slice_eq_append_iff 1#1 1#1

end

section
variable (c : ConditionCode) (op : DpOpcode) (f : Bool) (rn rd : BitVec 4) (op2 : Op2Form)

/-- The well-formedness check of a data-processing form says that rows 1 to 7 leave its word to row 8: the
immediate form has bit 25 set, the direct form bit 4 clear, and for the indirect form each part of the check
is one row's predicate. -/
theorem classify_dpWord_iff : classify (dpWord c op f rn rd op2) = .ok .dataProcessingPsr ↔
    WellFormed.dataProcessing op f rn rd op2 = true := by
  obtain ⟨-, htop, -, -, -, -, hop2⟩ := (dpWord_eq_iff c op f rn rd op2).mp rfl
  obtain ⟨h25, hlow⟩ := op2Of_eq_iff.mp hop2
  cases op2 with
  | imm rot v =>
    exact iff_of_true ((classify_eq_dataProcessingPsr_iff_bits _).mpr ⟨htop, .inl h25⟩) rfl
  | direct count ty low =>
    obtain ⟨-, -, h4, -⟩ := (bits11_0_eq_iff ..).mp hlow
    rw [slice_one_eq_zero_iff] at h4
    have odd_ne {w : Word} (h4 : w.getLsbD 4 = false) {v : BitVec 4} (hv : v.getLsbD 0 = true) :
        w.extractLsb' 4 4 ≠ v := fun h =>
      Bool.eq_false_iff.mp h4 ((getLsbD_of_slice h 0 (by decide)).trans hv)
    exact iff_of_true ((classify_eq_dataProcessingPsr_iff_bits _).mpr ⟨htop, .inr (.inl
      ⟨h25, odd_ne h4 rfl, odd_ne h4 rfl, odd_ne h4 rfl, odd_ne h4 rfl, odd_ne h4 rfl⟩)⟩) rfl
  | indirect reg ty low =>
    rw [classify_eq_dataProcessingPsr_iff, and_iff_right htop,
      forall_mem_rows_one_to_seven (C := fun P => P _ = false), isMultiply_indirect rfl,
      isMultiplyLong_indirect rfl, isBranchAndExchange_indirect rfl, isSingleDataSwap_indirect rfl,
      isHalfwordDataTransferReg_indirect rfl, isHalfwordDataTransferImm_indirect rfl,
      isSignedDataTransfer_indirect rfl]
    simp [WellFormed.dataProcessing, and_assoc]

variable {c op f rn rd op2}

theorem decodeWord_dpWord (h : WellFormed.dataProcessing op f rn rd op2 = true) :
    decodeWord (dpWord c op f rn rd op2) = .ofDpOpcode op c f rn rd op2 := by
  obtain ⟨hc, -, hop, hf, hrn, hrd, hop2⟩ := (dpWord_eq_iff c op f rn rd op2).mp rfl
  refine (decodeWord_of_classify ((classify_dpWord_iff c op f rn rd op2).mpr h)).trans ?_
  show Instr.ofDpOpcode _ _ _ _ _ _ = _
  rw [hc, hop, hf, hrn, hrd, hop2]

end

end Sys2Proof.Machine
end

section
/-! PROOFS. Decoding and encoding are inverse to each other on the well-formed instructions
(`30_encoding.md` sections 3, 4 and 9). -/

namespace Sys2Proof.Machine

@[simp] theorem wf_ofDpOpcode (op : DpOpcode) (c : ConditionCode) (f : Bool) (rn rd : BitVec 4)
    (op2 : Op2Form) :
    (Instr.ofDpOpcode op c f rn rd op2).wf = WellFormed.dataProcessing op f rn rd op2 := by
  cases op <;> rfl

/-- Settles O49: every row but 8 and 10 keeps all its words (`classify_multiplyWord` and the like), the check of
row 8 is `classify_dpWord_iff`, and no word of row 10 is its own (`classify_undefinedWord`). -/
theorem wellFormedMeansInOwnRegion : Obligations.WellFormedMeansInOwnRegion := by
  intro i
  cases i with
  | multiply => exact iff_of_true rfl (classify_multiplyWord ..)
  | branchAndExchange => exact iff_of_true rfl (classify_bxWord ..)
  | singleDataSwap => exact iff_of_true rfl (classify_swapWord ..)
  | halfwordDataTransferReg => exact iff_of_true rfl (classify_halfwordRegWord ..)
  | halfwordDataTransferImm => exact iff_of_true rfl (classify_halfwordImmWord ..)
  | signedDataTransfer => exact iff_of_true rfl (classify_signedWord ..)
  | undefined =>
    exact iff_of_false Bool.false_ne_true fun h => classify_ne_undefined h
  | blockDataTransfer => exact iff_of_true rfl (classify_blockTransferWord ..)
  | coprocDataTransfer => exact iff_of_true rfl (classify_coprocDataTransferWord ..)
  | coprocDataOp => exact iff_of_true rfl (classify_coprocDataOpWord ..)
  | coprocRegTransfer => exact iff_of_true rfl (classify_coprocRegTransferWord ..)
  | softwareInterrupt => exact iff_of_true rfl (classify_softwareInterruptWord ..)
  | unclassifiedInstruction => exact iff_of_true rfl (classify_holeWord ..)
  | loadStore | ldr | str => exact iff_of_true rfl (classify_lsWord ..)
  | branch | branchLinkFalse | branchLinkTrue => exact iff_of_true rfl (classify_branchWord ..)
  | multiplyLong | multiplyLongUnsignedTrueAccumulateFalse | multiplyLongUnsignedTrueAccumulateTrue
  | multiplyLongUnsignedFalseAccumulateFalse | multiplyLongUnsignedFalseAccumulateTrue =>
    exact iff_of_true rfl (classify_mlWord ..)
  | dataProcessingPsr | and | eor | sub | rsb | add | adc | sbc | rsc | tst | teq | cmp | cmn | orr | mov
  | bic | mvn => exact (classify_dpWord_iff ..).symm

/-- What the decoder reads from a well-formed instruction's word, row by row. -/
theorem decodeWord_encode {i : Instr} (h : i.wf = true) : decodeWord (encode i) = i.specific := by
  cases i with
  | multiply => exact decodeWord_multiplyWord ..
  | branchAndExchange => exact decodeWord_bxWord ..
  | singleDataSwap => exact decodeWord_swapWord ..
  | halfwordDataTransferReg => exact decodeWord_halfwordRegWord ..
  | halfwordDataTransferImm => exact decodeWord_halfwordImmWord ..
  | signedDataTransfer => exact decodeWord_signedWord ..
  | undefined => cases h
  | blockDataTransfer => exact decodeWord_blockTransferWord ..
  | coprocDataTransfer => exact decodeWord_coprocDataTransferWord ..
  | coprocDataOp => exact decodeWord_coprocDataOpWord ..
  | coprocRegTransfer => exact decodeWord_coprocRegTransferWord ..
  | softwareInterrupt => exact decodeWord_softwareInterruptWord ..
  | unclassifiedInstruction => exact decodeWord_holeWord ..
  | loadStore | ldr | str => exact decodeWord_lsWord ..
  | branch | branchLinkFalse | branchLinkTrue => exact decodeWord_branchWord ..
  | multiplyLong | multiplyLongUnsignedTrueAccumulateFalse | multiplyLongUnsignedTrueAccumulateTrue
  | multiplyLongUnsignedFalseAccumulateFalse | multiplyLongUnsignedFalseAccumulateTrue =>
    exact decodeWord_mlWord ..
  | dataProcessingPsr | and | eor | sub | rsb | add | adc | sbc | rsc | tst | teq | cmp | cmn | orr | mov
  | bic | mvn => exact decodeWord_dpWord h

/-- Settles O47: `decodeWord_encode`, and the word's bytes decode to the same (`decode_wordBytes`). -/
theorem decodeInvertsEncode : Obligations.DecodeInvertsEncode := by
  intro i h
  have hdecode := decodeWord_encode h
  exact ⟨hdecode, by rw [decode_wordBytes, hdecode]⟩

/-- The decoder's instruction lies in its own row: its word is the word decoded, and the classifier names the
decoder's row for it. -/
theorem decodeWord_wf (w : Word) : (decodeWord w).wf = true := by
  rw [wellFormedMeansInOwnRegion, encode_decodeWord]
  exact decodedRowIsTheClassification w

/-- Settles O48: the three parts are `encode_decodeWord`, `decodeWord_wf`, and the other round trip applied to
the decoded instruction. -/
theorem encodeInvertsDecode : Obligations.EncodeInvertsDecode := by
  intro w
  have hspecific := decodeWord_encode (decodeWord_wf w)
  rw [encode_decodeWord] at hspecific
  exact ⟨encode_decodeWord w, decodeWord_wf w, hspecific.symm⟩

end Sys2Proof.Machine
end

section
/-! PROOFS. Steps and runs: what one step delivers, what every step keeps, and a run over a word sequence
(`20_memory.md` sections 1 and 3, `70_reset_and_hazards.md`). -/

namespace Sys2Proof.Machine

/-! ## One instruction, one step -/

/-- Settles O46: `exec` appends one output (`exec_eq_next`), and `append` changes nothing else. -/
theorem everyInstructionFrame : Obligations.EveryInstructionFrame := by
  intro i s t h
  rw [exec_eq_next] at h
  cases h
  exact ⟨rfl, fun _ => rfl, rfl, rfl, rfl, _, rfl⟩

theorem step_of_decode {s : State} {i : Instr} {rest : List Byte} (hleft : s.position < s.count)
    (hdecode : decode (Memory.readBytes s.bytes s.wordAddress 4) = .ok (i, rest)) :
    step s = exec i s := by
  rw [step, if_pos hleft, hdecode]

/-- Settles O51: `step_of_decode`, and what the fetch decodes to (`decode_readBytes_of_wordAt`). -/
theorem stepRunsTheDecodedInstruction : Obligations.StepRunsTheDecodedInstruction :=
  ⟨fun _ _ _ => step_of_decode, fun _ _ _ => decode_readBytes_of_wordAt⟩

/-- A step answers exactly where a word is presented, and appends the block's outputs for it. -/
theorem step_eq_next_iff_outputs {s t : State} : step s = .next t ↔
    ∃ w, s.nextWord = some w ∧ t = s.append (blockOutputs Config.coarseMap w) := by
  simp only [step_eq_next_iff, encode_decodeWord]

/-- Settles O52: `step_eq_next_iff_outputs` at the word presented. -/
theorem stepDeliversTheBlocksOutputs : Obligations.StepDeliversTheBlocksOutputs :=
  fun _ w hnext => step_eq_next_iff_outputs.mpr ⟨w, hnext, rfl⟩

theorem wordReady_iff {s : State} : s.WordReady ↔ ∃ w, s.nextWord = some w := by
  simp only [State.WordReady, State.nextWord_eq_some_iff, Option.isSome_iff_exists,
    exists_and_left]

theorem step_of_ended {s : State} (h : ¬ s.position < s.count) :
    step s = .refused .sequenceEnded := by
  rw [step, if_neg h]

/-- Settles O53: a step is safe exactly where a word is presented; the two refusals are the other branches of
the step. -/
theorem stepStopsOnlyWithoutAWord : Obligations.StepStopsOnlyWithoutAWord := by
  intro s
  refine ⟨?_, step_of_ended, fun hleft hnone => ?_⟩
  · rw [wordReady_iff, SafeStep]
    simp only [step_eq_next_iff_outputs]
    constructor
    · rintro ⟨_, w, hnext, -⟩
      exact ⟨w, hnext⟩
    · rintro ⟨w, hnext⟩
      exact ⟨_, w, hnext, rfl⟩
  · rw [step, if_pos hleft, decode_readBytes_of_no_wordAt hnone]

/-! ## The invariant of every run -/

/-- Delivering the outputs of the word at the position keeps the invariant: the earlier entries stay where they
were, and the new one is the entry of the present position. -/
theorem State.Inv.append {s : State} {w : Word} (h : s.Inv) (hnext : s.nextWord = some w) :
    (s.append (blockOutputs Config.coarseMap w)).Inv := by
  obtain ⟨hcanonical, -, hlength, hpositional⟩ := h
  obtain ⟨hleft, hword⟩ := State.nextWord_eq_some_iff.mp hnext
  refine ⟨hcanonical, hleft, ?_, fun j hj => ?_⟩
  · simp [hlength]
  · rw [State.append_outputs]
    obtain hj | rfl := Nat.lt_succ_iff_lt_or_eq.mp hj
    case inl =>
      obtain ⟨v, hv, hout⟩ := hpositional j hj
      exact ⟨v, hv, by rw [List.getElem?_append_left (hlength ▸ hj), hout]⟩
    case inr => exact ⟨w, hword, by rw [← hlength, List.getElem?_concat_length]⟩

/-- Settles O56: what a step appends is `step_eq_next_iff_outputs`, and `State.Inv.append` keeps the
invariant. -/
theorem stepKeepsThePositionalInvariant : Obligations.StepKeepsThePositionalInvariant := by
  intro s t hinv hstep
  obtain ⟨w, hnext, rfl⟩ := step_eq_next_iff_outputs.mp hstep
  exact hinv.append hnext

/-- Settles O57: at reset nothing is listed, asked for or delivered. -/
theorem resetMeetsThePositionalInvariant : Obligations.ResetMeetsThePositionalInvariant :=
  ⟨Memory.wf_reset, Nat.le_refl 0, rfl, fun j hj => absurd hj (Nat.not_lt_zero j)⟩

/-- Settles O58: the fields of `State.reset`, and no word is left there. -/
theorem resetPresentsNoWord : Obligations.ResetPresentsNoWord :=
  ⟨rfl, rfl, rfl, rfl, rfl, step_of_ended (Nat.lt_irrefl 0)⟩

/-- Settles O59: the placed word is what the next step reads (`State.withFetchWord_wordAt`), and the decoder loses
no bit of it (`encode_decodeWord`). -/
theorem placedWordRunsNext : Obligations.PlacedWordRunsNext := by
  intro s w hw
  have hmod : w % 2 ^ 32 = w := Nat.mod_eq_of_lt hw
  have hword := State.withFetchWord_wordAt s 32 w
  have hleft : (s.withFetchWord 32 w).position < (s.withFetchWord 32 w).count :=
    lt_of_lt_of_le (Nat.lt_succ_self _) (Nat.le_max_right _ _)
  rw [hmod] at hword
  refine ⟨decodeWord (BitVec.ofNat 32 w), ?_, encode_decodeWord _, ?_⟩
  · rw [decodeTableWord_of_word, hmod]
  · exact step_of_decode hleft (decode_readBytes_of_wordAt hword)

/-! ## Word sequences -/

theorem Memory.wordSequence_succ_eq_some_iff {m : Memory} {off n : Nat} {ws : List Word} :
    Memory.wordSequence m off (n + 1) = some ws ↔
      ∃ w ws', ws = w :: ws' ∧ Memory.wordAt m off = some w
        ∧ Memory.wordSequence m (off + 4) n = some ws' := by
  rw [Memory.wordSequence]
  cases Memory.wordAt m off <;> cases Memory.wordSequence m (off + 4) n <;> simp [eq_comm]

/-- Settles O4: by induction on the count, the sequence's head being the word at the offset and its tail the
sequence four bytes on. -/
theorem wordSequenceTakesConsecutiveWords : Obligations.WordSequenceTakesConsecutiveWords := by
  intro m off n
  induction n generalizing off with
  | zero =>
    intro ws
    rw [List.length_eq_zero_iff]
    simp [Memory.wordSequence, eq_comm]
  | succ n ih =>
    intro ws
    rw [Memory.wordSequence_succ_eq_some_iff]
    constructor
    · rintro ⟨w, ws, rfl, hw, hws⟩
      obtain ⟨hlength, hentry⟩ := (ih (off + 4) ws).mp hws
      refine ⟨congrArg Nat.succ hlength, fun i hi => ?_⟩
      cases i with
      | zero => exact hw
      | succ i =>
        rw [List.getElem?_cons_succ, ← hentry i (Nat.lt_of_succ_lt_succ hi)]
        congr 1
        omega
    · rintro ⟨hlength, hentry⟩
      cases ws with
      | nil => cases hlength
      | cons w ws =>
        refine ⟨w, ws, rfl, hentry 0 (Nat.succ_pos n), (ih (off + 4) ws).mpr
          ⟨Nat.succ.inj hlength, fun i hi => ?_⟩⟩
        rw [← List.getElem?_cons_succ (a := w), ← hentry (i + 1) (Nat.succ_lt_succ hi)]
        congr 1
        omega

theorem run_succ {s t : State} (h : step s = .next t) (n : Nat) :
    Host.Core.run Sys2Proof.core (n + 1) s = Host.Core.run Sys2Proof.core n t := by
  have hcore : Sys2Proof.core.step s = .next t := h
  simp only [Host.Core.run, hcore]

/-- Settles O55: by induction on the number of words, each step delivering the first word's outputs and leaving
the rest of the sequence to the run from the next position. -/
theorem runDeliversTheWholeSequence : Obligations.RunDeliversTheWholeSequence := by
  intro s n
  induction n generalizing s with
  | zero =>
    intro ws hws _
    cases hws
    exact ⟨s, rfl, rfl, rfl, rfl, rfl, (List.append_nil _).symm,
      fun hend => step_of_ended (Nat.not_lt_of_le (Nat.le_of_eq hend.symm))⟩
  | succ n ih =>
    intro ws hws hcount
    obtain ⟨w, ws, rfl, hw, hws⟩ := Memory.wordSequence_succ_eq_some_iff.mp hws
    have hnext : s.nextWord = some w := State.nextWord_eq_some_iff.mpr ⟨by omega, hw⟩
    have hrest : (s.append (blockOutputs Config.coarseMap w)).position + n ≤ s.count := by
      rw [State.append_position]
      omega
    rw [← State.append_wordAddress s (blockOutputs Config.coarseMap w)] at hws
    obtain ⟨t, hrun, hbytes, hoffset, hcount', hposition, houtputs, hended⟩ := ih _ ws hws hrest
    refine ⟨t, (run_succ (stepDeliversTheBlocksOutputs s w hnext) n).trans hrun, hbytes, hoffset,
      hcount', ?_, ?_, fun hend => hended ?_⟩
    · rw [hposition, State.append_position]
      omega
    · rw [houtputs, State.append_outputs, List.append_assoc]
      rfl
    · rw [State.append_position, State.append_count]
      omega

end Sys2Proof.Machine
end

section
/-! PROOFS. Every instruction word completes: the output that `exec` delivers, family by family
(`60_exceptions.md` section 1, `43_instruction_facade.md`). -/

namespace Sys2Proof.Machine

/-! ## What every instruction reports -/

theorem condition_eq_condOf (w : Word) : condition w = condOf w :=
  condition_eq_condName w

/-- The word of every instruction names the instruction's condition (R41). -/
theorem condition_encode (i : Instr) : condition (encode i) = i.cond := by
  refine (condition_eq_iff _ _).mpr ?_
  open Laws.ConditionField in
  cases i with
  | multiply => exact multiplyWord_cond ..
  | branchAndExchange => exact bxWord_cond ..
  | singleDataSwap => exact swapWord_cond ..
  | halfwordDataTransferReg => exact halfwordRegWord_cond ..
  | halfwordDataTransferImm => exact halfwordImmWord_cond ..
  | signedDataTransfer => exact signedWord_cond ..
  | undefined => exact undefinedWord_cond ..
  | blockDataTransfer => exact blockTransferWord_cond ..
  | coprocDataTransfer => exact coprocDataTransferWord_cond ..
  | coprocDataOp => exact coprocDataOpWord_cond ..
  | coprocRegTransfer => exact coprocRegTransferWord_cond ..
  | softwareInterrupt => exact softwareInterruptWord_cond ..
  | unclassifiedInstruction => exact holeWord_cond ..
  | loadStore | ldr | str => exact lsWord_cond ..
  | branch | branchLinkFalse | branchLinkTrue => exact branchWord_cond ..
  | multiplyLong | multiplyLongUnsignedTrueAccumulateFalse | multiplyLongUnsignedTrueAccumulateTrue
  | multiplyLongUnsignedFalseAccumulateFalse | multiplyLongUnsignedFalseAccumulateTrue =>
    exact mlWord_cond ..
  | dataProcessingPsr | and | eor | sub | rsb | add | adc | sbc | rsc | tst | teq | cmp | cmn | orr | mov
  | bic | mvn => exact dpWord_cond ..

theorem op2ImmediateBit_eq_getLsbD (w : Word) : op2ImmediateBit w = w.getLsbD 25 :=
  bit_eq_getLsbD w 25 (by decide)

theorem setFlagsBit_eq_getLsbD (w : Word) : setFlagsBit w = w.getLsbD 20 :=
  bit_eq_getLsbD w 20 (by decide)

theorem operand2Raw_eq_extractLsb' (w : Word) : operand2Raw w = w.extractLsb' 0 12 :=
  ofNat_extract w 0 11 (by decide)

theorem blockOutputs_facadeOf (w : Word) : (blockOutputs Config.coarseMap w).FacadeOf w :=
  ⟨coarseRaw_eq_extractLsb' w, congrArg Config.coarseMap (coarseRaw_eq_extractLsb' w),
    op2ImmediateBit_eq_getLsbD w, setFlagsBit_eq_getLsbD w, rn_eq_extractLsb' w,
    rd_eq_extractLsb' w, shiftRegisterForm_eq_extractLsb' w, rotateImmediateForm_eq_extractLsb' w,
    operand2Raw_eq_extractLsb' w⟩

/-- Settles O45: `exec` delivers the block's outputs for the instruction's word, whose facade part is
`blockOutputs_facadeOf` and whose condition is `condition_encode`. -/
theorem everyInstructionReportsItsFacade : Obligations.EveryInstructionReportsItsFacade :=
  fun i s => ⟨_, exec_eq_next i s, blockOutputs_facadeOf _, condition_encode i⟩

/-- The other decoders mismatch, each with its own format as expected (R202). -/
theorem blockOutputs_mismatchesExcept {w : Word} {f : InstructionFormat} (h : classify w = .ok f) :
    (blockOutputs Config.coarseMap w).MismatchesExcept f :=
  ⟨requireFormat_of_mismatch h, requireFormat_of_mismatch h, requireFormat_of_mismatch h,
    requireFormat_of_mismatch h, requireFormat_of_mismatch h⟩

theorem exec_of_encode {i : Instr} {w : Word} (h : encode i = w) (s : State) :
    exec i s = .next (s.append (blockOutputs Config.coarseMap w)) := by
  rw [exec_eq_next, h]

/-! ## The formats without a decoder -/

theorem exec_completes (i : Instr) {f : InstructionFormat} (h : classify (encode i) = .ok f)
    (s : State) : ∃ o : Outputs, exec i s = .next (s.append o) ∧ o.classify = .ok f
      ∧ o.condition = i.cond ∧ o.MismatchesExcept f :=
  ⟨_, exec_eq_next i s, h, condition_encode i, blockOutputs_mismatchesExcept h⟩

/-- Settles O42: `exec_completes` with the classification of each row's words. -/
theorem narrowRowsWithoutDecoderComplete : Obligations.NarrowRowsWithoutDecoderComplete :=
  fun c lo s => ⟨fun x => exec_completes (.multiply c x lo) (classify_multiplyWord c x lo) s,
    fun b x => exec_completes (.singleDataSwap c b x lo) (classify_swapWord c b x lo) s,
    fun p x => exec_completes (.halfwordDataTransferReg c p x lo) (classify_halfwordRegWord c p x lo) s,
    fun p x => exec_completes (.halfwordDataTransferImm c p x lo) (classify_halfwordImmWord c p x lo) s,
    fun x b => exec_completes (.signedDataTransfer c x b lo) (classify_signedWord c x b lo) s⟩

/-- Settles O43: `exec_completes` with the classification of each row's words. -/
theorem wideRowsWithoutDecoderComplete : Obligations.WideRowsWithoutDecoderComplete :=
  fun c s => ⟨fun p x => exec_completes (.blockDataTransfer c p x) (classify_blockTransferWord c p x) s,
    fun x => exec_completes (.coprocDataTransfer c x) (classify_coprocDataTransferWord c x) s,
    fun x lo => exec_completes (.coprocDataOp c x lo) (classify_coprocDataOpWord c x lo) s,
    fun x lo => exec_completes (.coprocRegTransfer c x lo) (classify_coprocRegTransferWord c x lo) s,
    fun x => exec_completes (.softwareInterrupt c x) (classify_softwareInterruptWord c x) s⟩

/-- Settles O44: a word of the hole is classified as the error, and the shared check passes it on to the five
decoders. -/
theorem holeWordsCompleteWithTheError : Obligations.HoleWordsCompleteWithTheError := by
  intro c p x s
  have herr := classify_holeWord c p x
  exact ⟨_, _, rfl, exec_eq_next _ s, rfl, condition_encode _, herr, requireFormat_of_err herr,
    requireFormat_of_err herr, requireFormat_of_err herr, requireFormat_of_err herr,
    requireFormat_of_err herr⟩

/-! ## The five formats with a decoder -/

theorem shiftField_eq (w : Word) :
    shiftField w = ⟨w.extractLsb' 5 2, shiftTypeName (w.extractLsb' 5 2)⟩ := by
  have hty : BitVec.ofNat 2 (extract w 5 6 (by decide)) = w.extractLsb' 5 2 :=
    ofNat_extract w 5 6 (by decide)
  rw [shiftField, hty]

/-- The record's operand2 is that of the operand form that the word holds. -/
theorem decodeOperand2_eq_operand2Of (w : Word) : decodeOperand2 w = operand2Of (op2Of w) := by
  cases h25 : w.getLsbD 25 with
  | true => rw [decodeOperand2_of_bit25 h25, op2Of, if_pos h25, operand2Of]
  | false =>
    rw [decodeOperand2_of_not_bit25 h25, op2Of, if_neg (Bool.eq_false_iff.mp h25), shiftField_eq]
    cases w.getLsbD 4 <;> rfl

/-- The record's offset is that of the offset form that the word holds. -/
theorem decodeOffset_eq_offsetRecordOf (w : Word) : decodeOffset w = offsetRecordOf (offsetOf w) := by
  cases h25 : w.getLsbD 25 with
  | true => rw [decodeOffset_of_bit25 h25, offsetOf, if_pos h25, offsetRecordOf, shiftField_eq]
  | false =>
    rw [decodeOffset_of_not_bit25 h25, offsetOf, if_neg (Bool.eq_false_iff.mp h25), offsetRecordOf]

theorem decodeDataProcessing_dpWord (c : ConditionCode) {op : DpOpcode} {f : Bool} {rn rd : BitVec 4}
    {op2 : Op2Form} (h : WellFormed.dataProcessing op f rn rd op2 = true) :
    decodeDataProcessing (dpWord c op f rn rd op2) = .ok ⟨c, op, rd, rn, operand2Of op2, f⟩ := by
  obtain ⟨hc, -, hop, hf, hrn, hrd, hop2⟩ := (dpWord_eq_iff c op f rn rd op2).mp rfl
  refine decodeDataProcessing_eq_ok_iff.mpr ⟨(classify_dpWord_iff ..).mpr h, ?_⟩
  rw [condition_eq_condOf, hc, hop, hf, hrn, hrd, decodeOperand2_eq_operand2Of, hop2]

/-- Settles O36: sub-row and parent row have one word; it is classified as row 8 where the operands are well
formed, and its record is `decodeDataProcessing_dpWord`. -/
theorem dataProcessingWordsComplete : Obligations.DataProcessingWordsComplete := by
  intro op c f rn rd op2 s hwf
  rw [wf_ofDpOpcode] at hwf
  have hclass := (classify_dpWord_iff c op f rn rd op2).mpr hwf
  exact ⟨_, exec_of_encode (encode_ofDpOpcode ..) s, exec_eq_next _ s, hclass,
    condition_encode (.dataProcessingPsr c op f rn rd op2), decodeDataProcessing_dpWord c hwf,
    blockOutputs_mismatchesExcept hclass⟩

theorem decodeLoadStore_lsWord (c : ConditionCode) (op : LsOpcode) (p u b wb : Bool)
    (rn rd : BitVec 4) (off : OffsetForm) :
    decodeLoadStore (lsWord c op p u b wb rn rd off)
      = .ok ⟨c, op, rd, rn, wb, b, u, p, offsetRecordOf off⟩ := by
  obtain ⟨hc, -, hp, hu, hb, hwb, hop, hrn, hrd, hoff⟩ := (lsWord_eq_iff c op p u b wb rn rd off).mp rfl
  refine decodeLoadStore_eq_ok_iff.mpr ⟨classify_lsWord .., ?_⟩
  rw [condition_eq_condOf, hc, hp, hu, hb, hwb, hop, hrn, hrd, decodeOffset_eq_offsetRecordOf, hoff]

/-- Settles O37: sub-row and parent row have one word, its record is `decodeLoadStore_lsWord`. -/
theorem loadStoreWordsComplete : Obligations.LoadStoreWordsComplete := by
  intro op c p u b wb rn rd off s
  have hclass := classify_lsWord c op p u b wb rn rd off
  exact ⟨_, exec_of_encode (encode_ofLsOpcode ..) s, exec_eq_next _ s, hclass,
    condition_encode (.loadStore c op p u b wb rn rd off), decodeLoadStore_lsWord ..,
    blockOutputs_mismatchesExcept hclass⟩

/-- Row 10 fixes bits 27:25 and bit 4, so its word is one of row 9 with bit 25 set, and the fields of the record
lie within bits 24:5, the row's argument. -/
theorem decodeLoadStore_undefinedWord (c : ConditionCode) (x : BitVec 20) (lo : BitVec 4) :
    decodeLoadStore (undefinedWord c x lo) = .ok
      { condition := c
        opcode := if x.getLsbD 15 then .LDR else .STR
        rd := x.extractLsb' 7 4
        rn := x.extractLsb' 11 4
        writeback := x.getLsbD 16
        byteWord := x.getLsbD 17
        upDown := x.getLsbD 18
        prePost := x.getLsbD 19
        offset := .shiftOffset (x.extractLsb' 2 5)
          ⟨x.extractLsb' 0 2, shiftTypeName (x.extractLsb' 0 2)⟩ lo } := by
  obtain ⟨hc, htop, hx, -, hlo⟩ := (undefinedWord_eq_iff c x lo).mp rfl
  have h25 := getLsbD_of_slice htop 0 (by decide)
  have hbit (k : Nat) (hk : k < 20) := getLsbD_of_slice hx k hk
  have hslice (k m : Nat) (hk : k + m ≤ 20) := subslice_of_slice hx k m hk
  refine decodeLoadStore_eq_ok_iff.mpr ⟨classify_undefinedWord c x lo, ?_⟩
  rw [condition_eq_condOf, hc, hbit 15 (by decide), hslice 7 4 (by decide), hslice 11 4 (by decide),
    hbit 16 (by decide), hbit 17 (by decide), hbit 18 (by decide), hbit 19 (by decide),
    decodeOffset_of_bit25 h25, shiftField_eq, hslice 0 2 (by decide), hslice 2 5 (by decide), hlo,
    lsOpcodeName]

/-- Settles O38: the word is classified as row 9's, its record is `decodeLoadStore_undefinedWord`. -/
theorem undefinedWordsCompleteAsLoadStore : Obligations.UndefinedWordsCompleteAsLoadStore := by
  intro c x lo s
  have hclass := classify_undefinedWord c x lo
  exact ⟨_, exec_eq_next _ s, hclass, condition_encode (.undefined c x lo),
    decodeLoadStore_undefinedWord c x lo, blockOutputs_mismatchesExcept hclass⟩

theorem decodeBranch_branchWord (c : ConditionCode) (l : Bool) (off : BitVec 24) :
    decodeBranch (branchWord c l off) = .ok ⟨c, l, off⟩ := by
  obtain ⟨hc, -, hl, hoff⟩ := (branchWord_eq_iff c l off).mp rfl
  refine decodeBranch_eq_ok_iff.mpr ⟨classify_branchWord c l off, ?_⟩
  rw [condition_eq_condOf, hc, hl, hoff]

/-- Settles O39: sub-row and parent row have one word, its record is `decodeBranch_branchWord`. -/
theorem branchWordsComplete : Obligations.BranchWordsComplete := by
  intro l c off s
  have hclass := classify_branchWord c l off
  exact ⟨_, exec_of_encode (encode_ofLink ..) s, exec_eq_next _ s, State.append_position s _, hclass,
    condition_encode (.branch c l off), decodeBranch_branchWord c l off,
    blockOutputs_mismatchesExcept hclass⟩

theorem decodeBranchExchange_bxWord (c : ConditionCode) (t : BitVec 4) :
    decodeBranchExchange (bxWord c t) = .ok ⟨c, t⟩ := by
  obtain ⟨hc, -, ht⟩ := (bxWord_eq_iff c t).mp rfl
  refine decodeBranchExchange_eq_ok_iff.mpr ⟨classify_bxWord c t, ?_⟩
  rw [condition_eq_condOf, hc, ht]

/-- Settles O40: the record of the word is `decodeBranchExchange_bxWord`. -/
theorem branchExchangeWordsComplete : Obligations.BranchExchangeWordsComplete := by
  intro c t s
  have hclass := classify_bxWord c t
  exact ⟨_, exec_eq_next _ s, hclass, condition_encode (.branchAndExchange c t),
    decodeBranchExchange_bxWord c t, blockOutputs_mismatchesExcept hclass⟩

theorem decodeMultiplyLong_mlWord (c : ConditionCode) (u a f : Bool) (hi lo m n : BitVec 4) :
    decodeMultiplyLong (mlWord c u a f hi lo m n) = .ok ⟨c, !u, a, f, hi, lo, m, n⟩ := by
  obtain ⟨hc, -, hu, ha, hf, hhi, hlo, hm, -, hn⟩ := (mlWord_eq_iff c u a f hi lo m n).mp rfl
  refine decodeMultiplyLong_eq_ok_iff.mpr ⟨classify_mlWord c u a f hi lo m n, ?_⟩
  rw [condition_eq_condOf, hc, hu, ha, hf, hhi, hlo, hm, hn]

/-- Settles O41: sub-row and parent row have one word, its record is `decodeMultiplyLong_mlWord`. -/
theorem multiplyLongWordsComplete : Obligations.MultiplyLongWordsComplete := by
  intro u a f c hi lo m n s
  have hclass := classify_mlWord c u a f hi lo m n
  exact ⟨_, exec_of_encode (encode_ofMultiplyLongBits ..) s, exec_eq_next _ s, hclass,
    condition_encode (.multiplyLong c u a f hi lo m n), decodeMultiplyLong_mlWord c u a f hi lo m n,
    blockOutputs_mismatchesExcept hclass⟩

end Sys2Proof.Machine
end

section
/-! PROOFS. The facade against the classifier and the decoders, and what the decoders read and leave out
(`43_instruction_facade.md`, `44_data_processing_decoder.md` section 3, `45_load_store_decoder.md`). -/

namespace Sys2Proof.Machine

/-- Settles O2: the two branches of the checked extractor. -/
theorem extractOutsideDomainIsRefused : Obligations.ExtractOutsideDomainIsRefused :=
  fun _ _ _ => ⟨fun h => dif_pos h, fun h => dif_neg h⟩

/-- Settles O50: each word is evaluated. -/
theorem sampleWordsDecode : Obligations.SampleWordsDecode := by
  unfold Obligations.SampleWordsDecode
  decide

section
variable {w v : Word}

/-! ## The facade -/

/-- Settles O18: the two tuples are two ways to cut bits 11:0 in two. -/
theorem facadeViewsOfOperand2Agree : Obligations.FacadeViewsOfOperand2Agree := by
  intro w
  have hshift : w.extractLsb' 0 12 = w.extractLsb' 4 8 ++ w.extractLsb' 0 4 :=
    (slice_eq_append_iff (n := 8) (m := 4) _ _).mpr ⟨rfl, rfl⟩
  have hrotate : w.extractLsb' 0 12 = w.extractLsb' 8 4 ++ w.extractLsb' 0 8 :=
    (slice_eq_append_iff (n := 4) (m := 8) _ _).mpr ⟨rfl, rfl⟩
  refine ⟨op2ImmediateBit_eq_getLsbD w, setFlagsBit_eq_getLsbD w, operand2Raw_eq_extractLsb' w, ?_, ?_,
    fun r h25 hr => ?_⟩
  · rw [operand2Raw_eq_extractLsb', hshift, shiftRegisterForm_eq_extractLsb']
    exact toNat_append_mul _ _
  · rw [operand2Raw_eq_extractLsb', hrotate, rotateImmediateForm_eq_extractLsb']
    exact toNat_append_mul _ _
  · obtain ⟨-, rfl⟩ := decodeLoadStore_eq_ok_iff.mp hr
    exact (decodeOffset_of_not_bit25 h25).trans (congrArg _ (operand2Raw_eq_extractLsb' w).symm)

theorem coarseClass_eq (map : CoarseMap) (w : Word) :
    coarseClass map w = map (w.extractLsb' 26 2) :=
  congrArg map (coarseRaw_eq_extractLsb' w)

/-- Every row tests bits 27:26, so its format tells them. -/
theorem bits27_26_of_classify {f : InstructionFormat} (h : classify w = .ok f) :
    w.extractLsb' 26 2 = (rowMatch f).extractLsb' 26 2 := by
  obtain ⟨n, P, hn, hP, -⟩ := firstMatch_eq_ok_iff.mp h
  have hmask : (rowMask f).extractLsb' 26 2 = BitVec.allOnes 2 := by cases f <;> rfl
  rw [← (predicate_iff_masked hn w).mp hP, BitVec.extractLsb'_and, hmask, BitVec.and_allOnes]

/-- Settles O19: a format tells bits 27:26 (`bits27_26_of_classify`), at whose value the default map is
evaluated; `Undefined` is no classification, and the hole has bits 27:26 = 10. -/
theorem coarseClassAgainstFormat : Obligations.CoarseClassAgainstFormat := by
  refine ⟨fun map w => ⟨coarseRaw_eq_extractLsb' w, coarseClass_eq map w⟩, fun w f h => ?format,
    fun w herr => ?hole⟩
  case format =>
    have hf : f ≠ .undefined := fun hf => classify_ne_undefined (hf ▸ h)
    rw [coarseClass_eq, bits27_26_of_classify h]
    cases f with
    | undefined => exact absurd rfl hf
    | _ => decide
  case hole =>
    obtain ⟨hhole, -⟩ := classify_eq_unclassified_iff.mp herr
    rw [coarseClass_eq, bits27_26_of_branch_or_block_or_hole (.inr (.inr hhole))]
    rfl

/-- Bit 25 tells the immediate operand2 from the register shapes. -/
theorem decodeOperand2_immediate_iff {rot : BitVec 4} {val : BitVec 8} :
    decodeOperand2 w = .immediateRotate rot val ↔
      w.getLsbD 25 = true ∧ rotateImmediateForm w = (rot, val) := by
  rw [rotateImmediateForm_eq_extractLsb', Prod.mk.injEq]
  cases h25 : w.getLsbD 25 with
  | true => simp [decodeOperand2_of_bit25 h25]
  | false =>
    rw [decodeOperand2_of_not_bit25 h25]
    cases w.getLsbD 4 <;> simp

/-- Bit 25 tells the shifted offset from the immediate one. -/
theorem decodeOffset_shift_iff {k : BitVec 5} {ty : ShiftField} {reg : BitVec 4} :
    decodeOffset w = .shiftOffset k ty reg ↔
      w.getLsbD 25 = true ∧ w.extractLsb' 7 5 = k ∧ shiftField w = ty ∧ w.extractLsb' 0 4 = reg := by
  cases h25 : w.getLsbD 25 with
  | true => simp [decodeOffset_of_bit25 h25]
  | false => simp [decodeOffset_of_not_bit25 h25]

theorem decodeOffset_imm_iff {val : BitVec 12} :
    decodeOffset w = .immOffset val ↔ w.getLsbD 25 = false ∧ operand2Raw w = val := by
  rw [operand2Raw_eq_extractLsb']
  cases h25 : w.getLsbD 25 with
  | true => simp [decodeOffset_of_bit25 h25]
  | false => simp [decodeOffset_of_not_bit25 h25]

theorem lsOpcodeName_eq_ldr_iff {b : Bool} : lsOpcodeName b = .LDR ↔ b = true :=
  lsOpcodeName_eq_iff

/-- Settles O20: record and accessor are the same slice of the word; the two discriminants are bit 25. -/
theorem facadeAgreesWithDecoders : Obligations.FacadeAgreesWithDecoders := by
  intro w
  refine ⟨fun r hr => ?dataProcessing, fun r hr => ?loadStore, fun r hr => ?multiplyLong,
    fun r hr => ?branchExchange⟩
  case dataProcessing =>
    obtain ⟨-, rfl⟩ := decodeDataProcessing_eq_ok_iff.mp hr
    refine ⟨(rn_eq_extractLsb' w).symm, (rd_eq_extractLsb' w).symm, (setFlagsBit_eq_getLsbD w).symm,
      ?_, fun rot val h => (decodeOperand2_immediate_iff.mp h).2.symm⟩
    simp only [op2ImmediateBit_eq_getLsbD, decodeOperand2_immediate_iff, exists_and_left]
    exact (and_iff_left ⟨_, _, rfl⟩).symm
  case loadStore =>
    obtain ⟨-, rfl⟩ := decodeLoadStore_eq_ok_iff.mp hr
    refine ⟨(rn_eq_extractLsb' w).symm, (rd_eq_extractLsb' w).symm, ?_, ?_,
      fun val h => (decodeOffset_imm_iff.mp h).2.symm, fun k ty reg h => ?_⟩
    · rw [setFlagsBit_eq_getLsbD, lsOpcodeName_eq_ldr_iff]
    · simp only [op2ImmediateBit_eq_getLsbD, decodeOffset_shift_iff, exists_and_left]
      exact (and_iff_left ⟨_, rfl, _, rfl, _, rfl⟩).symm
    · obtain ⟨-, -, -, hreg⟩ := decodeOffset_shift_iff.mp h
      rw [shiftRegisterForm_eq_extractLsb', hreg]
  case multiplyLong =>
    obtain ⟨-, rfl⟩ := decodeMultiplyLong_eq_ok_iff.mp hr
    rw [rotateImmediateForm_eq_extractLsb', shiftRegisterForm_eq_extractLsb']
    exact ⟨(rn_eq_extractLsb' w).symm, (rd_eq_extractLsb' w).symm, (setFlagsBit_eq_getLsbD w).symm,
      rfl, rfl⟩
  case branchExchange =>
    obtain ⟨-, rfl⟩ := decodeBranchExchange_eq_ok_iff.mp hr
    rw [shiftRegisterForm_eq_extractLsb']

/-! ## Where each decoder succeeds -/

theorem classify_eq_loadStore_iff : classify w = .ok .loadStore ↔ w.extractLsb' 26 2 = 0b01#2 :=
  (classify_eq_ok_iff_predicate (n := 8) rfl (by decide) w).trans (isLoadStore_iff w)

/-- A decoder that succeeds on a word names the word's format. -/
theorem format_of_success {α : Type} {expected f : InstructionFormat} {record : α}
    (hf : classify w = .ok f) (h : ∃ r, requireFormat expected (classify w) record = .ok r) :
    f = expected := by
  cases hf.symm.trans (exists_requireFormat_eq_ok_iff.mp h)
  rfl

/-- Settles O24: each decoder succeeds exactly on its format (`exists_requireFormat_eq_ok_iff`), whose region is
the format's lemma. -/
theorem decodersSucceedOnDisjointRegions : Obligations.DecodersSucceedOnDisjointRegions :=
  fun w => ⟨exists_requireFormat_eq_ok_iff.trans (classify_eq_dataProcessingPsr_iff_bits w),
    exists_requireFormat_eq_ok_iff.trans classify_eq_loadStore_iff,
    exists_requireFormat_eq_ok_iff.trans classify_eq_branch_iff,
    exists_requireFormat_eq_ok_iff.trans classify_eq_branchAndExchange_iff,
    exists_requireFormat_eq_ok_iff.trans classify_eq_multiplyLong_iff,
    fun _ hf => ⟨format_of_success hf, format_of_success hf, format_of_success hf,
      format_of_success hf, format_of_success hf⟩⟩

/-! ## What does not reach a record -/

theorem AgreeOutside.slice_eq {lo len : Nat} (h : AgreeOutside lo len w v) (i n : Nat)
    (hout : i + n ≤ lo ∨ lo + len ≤ i) : w.extractLsb' i n = v.extractLsb' i n := by
  apply BitVec.eq_of_getLsbD_eq
  intro k hk
  rw [BitVec.getLsbD_extractLsb', BitVec.getLsbD_extractLsb', h (i + k) (by omega)]

/-- Settles O28: the record of a register form reads bits 31:4 only, and so does the classification; the
examples are evaluated. -/
theorem shiftedRegisterIsNotInTheRecord : Obligations.ShiftedRegisterIsNotInTheRecord := by
  refine ⟨fun w v h25 hagree r hr => ?_, by decide, by decide⟩
  have bit (k : Nat) (hk : 4 ≤ k) : v.getLsbD k = w.getLsbD k := (hagree k (by omega)).symm
  have slice (i n : Nat) (hi : 4 ≤ i) : v.extractLsb' i n = w.extractLsb' i n :=
    (hagree.slice_eq i n (.inr (by omega))).symm
  obtain ⟨hclass, rfl⟩ := decodeDataProcessing_eq_ok_iff.mp hr
  refine decodeDataProcessing_eq_ok_iff.mpr
    ⟨(classify_eq_ok_congr (slice 4 24 (by decide)) _).mpr hclass, ?_⟩
  have h25' : v.getLsbD 25 = false := (bit 25 (by decide)).trans h25
  rw [condition_eq_condName, condition_eq_condName, decodeOperand2_of_not_bit25 h25,
    decodeOperand2_of_not_bit25 h25', shiftField_eq, shiftField_eq, bit 4 (by decide),
    bit 20 (by decide), slice 28 4 (by decide), slice 21 4 (by decide), slice 12 4 (by decide),
    slice 16 4 (by decide), slice 7 5 (by decide), slice 5 2 (by decide)]

/-- Settles O31: the record of the shift form reads every bit but bit 4, and bits 27:26 alone classify; a word of
row 10 is a word of row 9. -/
theorem loadStoreIgnoresBitFour : Obligations.LoadStoreIgnoresBitFour := by
  refine ⟨fun w v h25 hagree r hr => ?_,
    fun w hw => exists_requireFormat_eq_ok_iff.mpr (classify_of_isUndefined hw)⟩
  have bit (k : Nat) (hk : 4 < k) : v.getLsbD k = w.getLsbD k := (hagree k (by omega)).symm
  have slice (i n : Nat) (hi : i + n ≤ 4 ∨ 5 ≤ i) : v.extractLsb' i n = w.extractLsb' i n :=
    (hagree.slice_eq i n hi).symm
  obtain ⟨hclass, rfl⟩ := decodeLoadStore_eq_ok_iff.mp hr
  refine decodeLoadStore_eq_ok_iff.mpr ⟨?_, ?_⟩
  · rw [classify_eq_loadStore_iff, slice 26 2 (by decide)]
    exact classify_eq_loadStore_iff.mp hclass
  have h25' : v.getLsbD 25 = true := (bit 25 (by decide)).trans h25
  rw [condition_eq_condName, condition_eq_condName, decodeOffset_of_bit25 h25,
    decodeOffset_of_bit25 h25', shiftField_eq, shiftField_eq, bit 20 (by decide), bit 21 (by decide),
    bit 22 (by decide), bit 23 (by decide), bit 24 (by decide), slice 28 4 (by decide),
    slice 12 4 (by decide), slice 16 4 (by decide), slice 7 5 (by decide), slice 5 2 (by decide),
    slice 0 4 (by decide)]

/-! ## The indirect shift register -/

theorem decodeOperand2_indirect_iff {reg : BitVec 5} {ty : ShiftField} :
    decodeOperand2 w = .shiftRegisterIndirect reg ty ↔
      w.getLsbD 25 = false ∧ w.getLsbD 4 = true ∧ w.extractLsb' 7 5 = reg ∧ shiftField w = ty := by
  cases h25 : w.getLsbD 25 with
  | true => simp [decodeOperand2_of_bit25 h25]
  | false =>
    rw [decodeOperand2_of_not_bit25 h25]
    cases w.getLsbD 4 <;> simp

/-- With bits 25 and 4 as in the indirect form, a word of row 8 that has bit 7 set has bit 6 clear: row 7 takes
the others. -/
theorem bit6_of_indirect_of_bit7 (h : classify w = .ok .dataProcessingPsr)
    (h25 : w.getLsbD 25 = false) (h4 : w.getLsbD 4 = true) (h7 : w.getLsbD 7 = true) :
    w.getLsbD 6 = false := by
  refine Bool.eq_false_iff.mpr fun h6 => not_signed_pattern_of_dataProcessingPsr h h25 ⟨?_, h4⟩
  exact (slice_eq_append_iff 1#1 1#1).mpr
    ⟨slice_one_eq_one_iff.mpr h7, slice_one_eq_one_iff.mpr h6⟩

theorem eq_zero_or_one_of_high_clear {b : BitVec 2} (h : b.getLsbD 1 = false) :
    b = 0#2 ∨ b = 1#2 := by
  revert b
  decide

/-- `MOV` takes every register field: none of rows 1 to 6 has its opcode number with shift type 0, and row 7 needs
the high bit of the shift type. -/
theorem mov_indirect_wf (reg : BitVec 5) :
    WellFormed.dataProcessing .MOV false 0 0 (.indirect reg 0 0) = true := by
  revert reg
  decide

/-- Settles O29: the register is bits 11:7, cut into bits 11:8 and bit 7; the words of `MOV` reach every value. -/
theorem indirectShiftRegisterIsFiveBits : Obligations.IndirectShiftRegisterIsFiveBits := by
  refine ⟨fun w r reg ty hr hop2 => ?_,
    fun reg => ⟨_, _, _, decodeDataProcessing_dpWord .AL (mov_indirect_wf reg), rfl⟩⟩
  obtain ⟨hclass, rfl⟩ := decodeDataProcessing_eq_ok_iff.mp hr
  obtain ⟨h25, h4, rfl, rfl⟩ := decodeOperand2_indirect_iff.mp hop2
  refine ⟨?_, fun h7 => ?_⟩
  · have hcut : w.extractLsb' 7 5 = w.extractLsb' 8 4 ++ BitVec.ofBool (w.getLsbD 7) :=
      (slice_eq_append_iff _ _).mpr ⟨rfl, (slice_one_eq_ofBool_iff _).mpr rfl⟩
    rw [hcut, toNat_append_mul, BitVec.toNat_ofBool]
    omega
  · rw [shiftField_raw]
    apply eq_zero_or_one_of_high_clear
    rw [← getLsbD_of_slice rfl 1 (by decide)]
    exact bit6_of_indirect_of_bit7 hclass h25 h4 h7

end

end Sys2Proof.Machine
end

section
/-! PROOFS. The port codes: each code read back by the table it stands for, and the status of each operation
(`10_state.md` R29). -/

namespace Sys2Proof.Machine

/-! ## One-to-one: each code has a name table that reads it back -/

theorem row_of_formatCode (f : InstructionFormat) :
    (predicateTable.map Prod.snd)[(formatCode f).toNat]? = some f := by
  cases f <;> rfl

theorem formatCode_injective : Function.Injective formatCode := by
  intro f g h
  have hg := row_of_formatCode g
  rw [← h, row_of_formatCode] at hg
  exact Option.some.inj hg

theorem errorPayload_injective : Function.Injective errorPayload := by
  intro x y h
  cases x <;> cases y
  case unclassifiedInstruction.unclassifiedInstruction => cases h; rfl
  case unclassifiedInstruction.formatMismatch => cases h
  case formatMismatch.unclassifiedInstruction => cases h
  case formatMismatch.formatMismatch =>
    obtain ⟨hexpected, hactual⟩ := Prod.mk.inj (Sum.inr.inj h)
    rw [formatCode_injective hexpected, formatCode_injective hactual]

theorem shiftTypeName_code (a : ShiftType) : shiftTypeName (shiftTypeCode a) = a := by
  cases a <;> rfl

theorem shiftTypeCode_name (v : BitVec 2) : shiftTypeCode (shiftTypeName v) = v := by
  revert v
  decide

theorem defaultCoarseMap_code (a : Option CoarseClass) :
    Config.defaultCoarseMap (coarseClassCode a) = a := by
  cases a with
  | none => rfl
  | some c => cases c <;> rfl

theorem coarseClassCode_default (v : BitVec 2) :
    coarseClassCode (Config.defaultCoarseMap v) = v := by
  revert v
  decide

/-! ## Result status -/

section
variable {α : Type} {r : Result α}

theorem statusCode_eq_zero_iff : statusCode r = 0#2 ↔ ∃ v, r = .ok v := by
  obtain v | w | ⟨e, a⟩ := r <;> simp [statusCode]

theorem statusCode_eq_one_iff : statusCode r = 1#2 ↔ ∃ w, r = .err (.unclassifiedInstruction w) := by
  obtain v | w | ⟨e, a⟩ := r <;> simp [statusCode]

theorem statusCode_eq_two_iff : statusCode r = 2#2 ↔ ∃ e a, r = .err (.formatMismatch e a) := by
  obtain v | w | ⟨e, a⟩ := r <;> simp [statusCode]

theorem statusCode_ne_three : statusCode r ≠ 3#2 := by
  obtain v | w | ⟨e, a⟩ := r <;> simp [statusCode]

end

section
variable {w : Word}

theorem statusCode_classify_ne_two : statusCode (classify w) ≠ 2#2 := by
  rw [Ne, statusCode_eq_two_iff]
  rintro ⟨e, a, h⟩
  exact classify_ne_formatMismatch e a h

theorem statusCode_classify_eq_one_iff : statusCode (classify w) = 1#2 ↔
    w.extractLsb' 25 3 = 0b100#3 ∧ w.getLsbD 22 = true := by
  simp only [statusCode_eq_one_iff, classify_eq_unclassified_iff, exists_and_left, exists_eq,
    and_true]

variable {α : Type} {expected : InstructionFormat} {record : α}

theorem statusCode_decoder_eq_zero_iff :
    statusCode (requireFormat expected (classify w) record) = 0#2 ↔ classify w = .ok expected :=
  statusCode_eq_zero_iff.trans exists_requireFormat_eq_ok_iff

theorem statusCode_decoder_eq_one_iff :
    statusCode (requireFormat expected (classify w) record) = 1#2
      ↔ statusCode (classify w) = 1#2 := by
  simp only [statusCode_eq_one_iff, requireFormat_eq_unclassified_iff]

/-! ## Tags -/

theorem operand2Tag_decodeOperand2 (w : Word) : operand2Tag (decodeOperand2 w) =
    if w.getLsbD 25 then 0 else if w.getLsbD 4 then 2 else 1 := by
  cases h25 : w.getLsbD 25 with
  | true => rw [decodeOperand2_of_bit25 h25]; rfl
  | false =>
    rw [decodeOperand2_of_not_bit25 h25]
    cases w.getLsbD 4 <;> rfl

theorem operand2Tag_ne_three (o : Operand2) : operand2Tag o ≠ 3#2 := by
  cases o <;> simp [operand2Tag]

theorem offsetTag_decodeOffset (w : Word) :
    offsetTag (decodeOffset w) = BitVec.ofBool (w.getLsbD 25) := by
  cases h25 : w.getLsbD 25 with
  | true => rw [decodeOffset_of_bit25 h25]; rfl
  | false => rw [decodeOffset_of_not_bit25 h25]; rfl

end

/-- Settles O60: every code is read back by a table, the statuses follow the result, and the codes that stand for
bits of the word are the slices. -/
theorem portCodesAreOneToOne : Obligations.PortCodesAreOneToOne := by
  refine ⟨fun _ _ h => formatCode_injective h, fun _ _ _ => formatCode_of_row,
    fun _ _ => ⟨statusCode_eq_zero_iff, statusCode_eq_one_iff, statusCode_eq_two_iff,
      statusCode_ne_three⟩,
    fun _ => ⟨statusCode_classify_ne_two, statusCode_classify_eq_one_iff,
      statusCode_decoder_eq_zero_iff, statusCode_decoder_eq_one_iff,
      statusCode_decoder_eq_zero_iff, statusCode_decoder_eq_one_iff,
      statusCode_decoder_eq_zero_iff, statusCode_decoder_eq_one_iff,
      statusCode_decoder_eq_zero_iff, statusCode_decoder_eq_one_iff,
      statusCode_decoder_eq_zero_iff, statusCode_decoder_eq_one_iff⟩,
    fun _ => rfl, fun _ _ => rfl, fun _ _ h => errorPayload_injective h,
    fun _ _ h => Function.LeftInverse.injective condName_bits h, fun w => ?condition,
    fun _ _ h => Function.LeftInverse.injective dpOpcodeName_bits h, fun w r hr => ?dpOpcode, rfl, rfl,
    fun w r hr => ?lsOpcode, fun _ _ h => Function.LeftInverse.injective shiftTypeName_code h,
    fun w => ?shiftType, operand2Tag_decodeOperand2, operand2Tag_ne_three, offsetTag_decodeOffset,
    fun _ _ h => Function.LeftInverse.injective defaultCoarseMap_code h, fun w => ?coarse⟩
  case condition => rw [condition_eq_condName, bits_condName]
  case dpOpcode =>
    obtain ⟨-, rfl⟩ := decodeDataProcessing_eq_ok_iff.mp hr
    exact bits_dpOpcodeName _
  case lsOpcode =>
    obtain ⟨-, rfl⟩ := decodeLoadStore_eq_ok_iff.mp hr
    exact bit_lsOpcodeName _
  case shiftType => rw [shiftField_eq, shiftTypeCode_name]
  case coarse => rw [coarseClass_eq, coarseClassCode_default]

end Sys2Proof.Machine
end
